-- ==== Sys2Proof/Word.lean ====
section
/-! DEFINITION. The word types of the block and the triple of its three output channels
(00_scope.md R10: every stored value is unsigned; 42_output_stage.md R160: three channels). -/

namespace Sys2Proof

/-- A command byte, a broadcast byte, a byte of an IR frame (30_encoding.md R90, R93, R89). -/
abbrev Byte := BitVec 8

/-- A 32-bit operation word (30_encoding.md R70). -/
abbrev OpWord := BitVec 32

/-- A 16-bit timestamp or duration in microseconds (40_ir_decoder.md R101). -/
abbrev Micros := BitVec 16

/-- A linear value or a duty count, 0..1023 (00_scope.md R7, VAL_W). -/
abbrev Level := BitVec 10

/-- The three output channels: 0 = R, 1 = G, 2 = B (42_output_stage.md R160). -/
inductive Channel
  | red
  | green
  | blue
  deriving DecidableEq, Repr, Inhabited

/-- One value for each output channel (00_scope.md R7, N_CH = 3). -/
structure Rgb (α : Type) where
  r : α
  g : α
  b : α
  deriving DecidableEq, Repr, Inhabited

/-- The value of one channel. -/
def Rgb.get {α : Type} (x : Rgb α) : Channel → α
  | .red => x.r
  | .green => x.g
  | .blue => x.b

/-- The same function on each channel (42_output_stage.md R162: a lane depends on its own input only). -/
def Rgb.map {α β : Type} (f : α → β) (x : Rgb α) : Rgb β :=
  ⟨f x.r, f x.g, f x.b⟩

/-- One value on every channel. -/
def Rgb.all {α : Type} (a : α) : Rgb α := ⟨a, a, a⟩

end Sys2Proof
end

