-- ==== Sys2Proof/Syntax.lean ====
section
/-! DEFINITION. What can be asked of the block and of its boundary: the operations, command bytes and broadcast
bytes of spec/opcode_table.json, the words that encode them, and the requests of a run. -/

namespace Sys2Proof

/-- The polarity of an edge event (30_encoding.md R71: P = 1 is RISE, P = 0 is FALL). -/
inductive Polarity
  | rise
  | fall
  deriving DecidableEq, Repr, Inhabited

/-- One constructor per row of spec/opcode_table.json, in the table's order. The first ten are the operation
words (30_encoding.md R83), the next fourteen the command bytes (R90, R91), the last two the broadcast bytes (R93).
UNKNOWN has three rows; each carries the bits its row leaves free (log 18). -/
inductive Instr
  /-- EDGE: one edge capture (40_ir_decoder.md R103). -/
  | edge (p : Polarity) (ts : Micros)
  /-- BG_TICK: background tick (40_ir_decoder.md R114). -/
  | bgTick (ts : Micros)
  /-- DEFRAME: consume a completed frame (40_ir_decoder.md R120). -/
  | deframe
  /-- ENQ: enqueue one byte (41_command_queue.md R141). -/
  | enq (b : Byte)
  /-- DEQ: dequeue one byte (41_command_queue.md R145). -/
  | deq
  /-- ROLLOVER: PWM period boundary (42_output_stage.md R165). -/
  | rollover
  /-- DRAIN: read and clear the pending animation ticks (42_output_stage.md R172). -/
  | drain
  /-- PWR_OFF: halt the generator (42_output_stage.md R175). -/
  | pwrOff
  /-- PWR_ON: resume the generator (42_output_stage.md R178). -/
  | pwrOn
  /-- OUT_WRITE: write the pending duty triple (42_output_stage.md R161). -/
  | outWrite (vr vg vb : Level)
  /-- NOCMD, 0x00 (45_command_bytes.md R191). -/
  | nocmd
  /-- PWROFF, 0x02 (45_command_bytes.md R192); not the operation PWR_OFF. -/
  | cmdPwrOff
  /-- PWRON, 0x03 (45_command_bytes.md R193); not the operation PWR_ON. -/
  | cmdPwrOn
  /-- BRIDEC, 0x04 (45_command_bytes.md R194). -/
  | briDec
  /-- BRIINC, 0x05 (45_command_bytes.md R195). -/
  | briInc
  /-- SPDDEC, 0x06 (45_command_bytes.md R196). -/
  | spdDec
  /-- SPDINC, 0x07 (45_command_bytes.md R197). -/
  | spdInc
  /-- SELANIM, 0x10..0x1F (45_command_bytes.md R198). -/
  | selAnim (n : BitVec 4)
  /-- SELCOLOR, 0x20..0x3F (45_command_bytes.md R199). -/
  | selColor (n : BitVec 5)
  /-- SETBRI, 0x80..0xBF (45_command_bytes.md R200). -/
  | setBri (v : BitVec 6)
  /-- SETSPD, 0xC0..0xFF (45_command_bytes.md R201). -/
  | setSpd (v : BitVec 6)
  /-- UNKNOWN, 0x01 (45_command_bytes.md R202). -/
  | unknown01
  /-- UNKNOWN, 0x08..0x0F (45_command_bytes.md R202). -/
  | unknown08 (x : BitVec 3)
  /-- UNKNOWN, 0x40..0x7F (45_command_bytes.md R202). -/
  | unknown40 (x : BitVec 6)
  /-- Broadcast 0x01: animation mode disengaged (45_command_bytes.md R203). -/
  | bcastAnimOff
  /-- Broadcast 0x02: animation mode engaged (45_command_bytes.md R204). -/
  | bcastAnimOn
  deriving DecidableEq, Repr

/-- An encoded request on the channel it arrives by. The same byte means different things as a command byte and
as a bus write: the two sets "are disjoint by channel, not by value" (30_encoding.md R93, 90_conflicts.md C7). -/
inductive PortWord
  /-- A 32-bit operation word at the block's ports (30_encoding.md R70). -/
  | op (w : OpWord)
  /-- A command byte handed to the dispatcher (30_encoding.md R90). -/
  | command (b : Byte)
  /-- A byte written to a responder over the bus (30_encoding.md R93). -/
  | broadcast (b : Byte)
  deriving DecidableEq, Repr

/-- One request of a run. `present` presents an encoded word. The other two are the moves of the surrounding
software that the spec describes at the block's boundary (log 14). -/
inductive Input
  /-- Present a word on its channel. -/
  | present (w : PortWord)
  /-- Map record `k` of the IR output trace through KEYMAP and issue ENQ with the byte it gives
  (40_ir_decoder.md R127). -/
  | routeRecord (k : Nat)
  /-- The dispatcher acts on result `k` of the result port, a byte that a DEQ delivered
  (41_command_queue.md R150, 45_command_bytes.md). -/
  | dispatchResult (k : Nat)
  deriving DecidableEq, Repr

/-- The agents of 00_scope.md R15, and the two of the boundary (45_command_bytes.md). -/
inductive Agent
  | captureFrontEnd
  | backgroundTimer
  | frameConsumer
  | queueProducer
  | queueConsumer
  | pwmGenerator
  | outputClient
  | dispatcher
  | busResponder
  deriving DecidableEq, Repr

/-- The kinds of the operation map (30_encoding.md R83). -/
inductive OpKind
  | externalInput
  | externalInputWithResult
  | guardedInternalStep
  | boundaryStep
  deriving DecidableEq, Repr

/-- Which agent issues an operation (30_encoding.md R83; 45_command_bytes.md for the boundary). -/
def Instr.agent : Instr → Agent
  | .edge _ _ => .captureFrontEnd
  | .bgTick _ => .backgroundTimer
  | .deframe => .frameConsumer
  | .enq _ => .queueProducer
  | .deq => .queueConsumer
  | .rollover => .pwmGenerator
  | .drain => .outputClient
  | .pwrOff => .outputClient
  | .pwrOn => .outputClient
  | .outWrite _ _ _ => .outputClient
  | .nocmd => .dispatcher
  | .cmdPwrOff => .dispatcher
  | .cmdPwrOn => .dispatcher
  | .briDec => .dispatcher
  | .briInc => .dispatcher
  | .spdDec => .dispatcher
  | .spdInc => .dispatcher
  | .selAnim _ => .dispatcher
  | .selColor _ => .dispatcher
  | .setBri _ => .dispatcher
  | .setSpd _ => .dispatcher
  | .unknown01 => .dispatcher
  | .unknown08 _ => .dispatcher
  | .unknown40 _ => .dispatcher
  | .bcastAnimOff => .busResponder
  | .bcastAnimOn => .busResponder

/-- The kind of an operation (30_encoding.md R83). -/
def Instr.kind : Instr → OpKind
  | .edge _ _ => .externalInput
  | .bgTick _ => .externalInput
  | .deframe => .guardedInternalStep
  | .enq _ => .externalInput
  | .deq => .externalInputWithResult
  | .rollover => .guardedInternalStep
  | .drain => .externalInputWithResult
  | .pwrOff => .externalInput
  | .pwrOn => .externalInput
  | .outWrite _ _ _ => .externalInput
  | .nocmd => .boundaryStep
  | .cmdPwrOff => .boundaryStep
  | .cmdPwrOn => .boundaryStep
  | .briDec => .boundaryStep
  | .briInc => .boundaryStep
  | .spdDec => .boundaryStep
  | .spdInc => .boundaryStep
  | .selAnim _ => .boundaryStep
  | .selColor _ => .boundaryStep
  | .setBri _ => .boundaryStep
  | .setSpd _ => .boundaryStep
  | .unknown01 => .boundaryStep
  | .unknown08 _ => .boundaryStep
  | .unknown40 _ => .boundaryStep
  | .bcastAnimOff => .boundaryStep
  | .bcastAnimOn => .boundaryStep

end Sys2Proof
end

