-- ==== Sys2Proof/Config.lean ====
section
/-! DEFINITION. The parameters of the block: the fixed ones of 00_scope.md R7 as numbers, the open ones of
00_scope.md R8 as constants without a body, gathered in one record of plain data that State carries (log 4). -/

namespace Sys2Proof

/-! ## Fixed parameters (00_scope.md R7) -/

/-- RAW_LEN. -/
abbrev Config.rawLen : Nat := 66
/-- M_START_PULSE. -/
abbrev Config.mStartPulse : Nat := 16
/-- M_START_PAUSE. -/
abbrev Config.mStartPause : Nat := 8
/-- M_REPEAT_PAUSE. -/
abbrev Config.mRepeatPause : Nat := 4
/-- M_BIT_PULSE. -/
abbrev Config.mBitPulse : Nat := 1
/-- M_BIT0_PAUSE. -/
abbrev Config.mBit0Pause : Nat := 1
/-- M_BIT1_PAUSE. -/
abbrev Config.mBit1Pause : Nat := 3
/-- REPEAT_CAP, in background ticks. -/
abbrev Config.repeatCap : Nat := 4
/-- Q_MASK. -/
abbrev Config.qMask : BitVec 4 := 15#4
/-- Q_USABLE. -/
abbrev Config.qUsable : Nat := 15
/-- DUTY_OFF_THRESHOLD. -/
abbrev Config.dutyOffThreshold : Nat := 2
/-- SENTINEL, the "no-command" byte. -/
abbrev Config.sentinel : Byte := 0x00#8

/-! ## Open parameters (00_scope.md R8) -/

/-- PWM_PERIOD_COUNTS, one of 1023 and 1024 (90_conflicts.md C6). -/
inductive PwmPeriod
  | counts1023
  | counts1024
  deriving DecidableEq, Repr, Inhabited

/-- The number of counts in one PWM period. -/
def PwmPeriod.counts : PwmPeriod → Nat
  | .counts1023 => 1023
  | .counts1024 => 1024

/-- One row of KEYMAP: the byte it gives for an address, a command and the master_animated flag. -/
structure KeymapEntry where
  addr : BitVec 16
  cmd : Byte
  animated : Bool
  code : Byte
  deriving DecidableEq, Repr, Inhabited

/-- The open parameters, "the model takes each one as an argument" (00_scope.md R8), as plain data.
KEYMAP is a list of rows of which the first that fits counts; every partial map has such a list. -/
structure Params where
  /-- T_UNIT_X2, the base unit in half-microseconds. -/
  tUnitX2 : Nat
  /-- PULSE_END_EDGE. -/
  pulseEndEdge : Polarity
  /-- IR_ACCEPTED_ADDRESS. -/
  acceptedAddress : BitVec 16
  /-- GAMMA_LUT, state element S17 (10_state.md R38), read-only. -/
  gammaLut : Vector Level 1024
  /-- TICK_SAT_MAX. -/
  tickSatMax : Nat
  /-- PWM_PERIOD_COUNTS. -/
  pwmPeriod : PwmPeriod
  /-- KEYMAP. -/
  keymap : List KeymapEntry
  /-- ANIM_SMOOTH. -/
  animSmooth : Vector Bool 4
  /-- PALETTE. -/
  palette : Vector (Rgb Level) 16
  deriving DecidableEq, Repr

/-- OPEN: T_UNIT_X2 less one; the parameter is a natural number > 0. -/
opaque Config.unitLessOne : Nat
/-- OPEN: PULSE_END_EDGE. -/
opaque Config.pulseEndEdge : Polarity
/-- OPEN: IR_ACCEPTED_ADDRESS. -/
opaque Config.acceptedAddress : BitVec 16
/-- OPEN: any map; GAMMA_LUT is its running maximum, so it is monotonic, and every monotonic table is the
running maximum of itself. -/
opaque Config.gammaSeed : Nat → Level
/-- OPEN: TICK_SAT_MAX less one; the parameter is a natural number >= 1. -/
opaque Config.tickSatLessOne : Nat
/-- OPEN: PWM_PERIOD_COUNTS. -/
opaque Config.pwmPeriod : PwmPeriod
/-- OPEN: KEYMAP. -/
opaque Config.keymap : List KeymapEntry
/-- OPEN: ANIM_SMOOTH. -/
opaque Config.animSmooth : Nat → Bool
/-- OPEN: PALETTE. -/
opaque Config.palette : Nat → Rgb Level

/-- The greater of two levels. -/
def Config.maxLevel (a b : Level) : Level := if a ≤ b then b else a

/-- GAMMA_LUT at an index: the running maximum of `gammaSeed`. -/
def Config.gammaAt : Nat → Level
  | 0 => Config.gammaSeed 0
  | n + 1 => Config.maxLevel (Config.gammaAt n) (Config.gammaSeed (n + 1))

/-- The parameters of the block as they are fixed before its first step (70_reset_and_hazards.md R255). -/
def Config.params : Params where
  tUnitX2 := Config.unitLessOne + 1
  pulseEndEdge := Config.pulseEndEdge
  acceptedAddress := Config.acceptedAddress
  gammaLut := Vector.ofFn fun i => Config.gammaAt i.val
  tickSatMax := Config.tickSatLessOne + 1
  pwmPeriod := Config.pwmPeriod
  keymap := Config.keymap
  animSmooth := Vector.ofFn fun i => Config.animSmooth i.val
  palette := Vector.ofFn fun i => Config.palette i.val

/-- GAMMA_LUT[v]; every 10-bit index is in range (20_memory.md R53). -/
def Params.gamma (p : Params) (v : Level) : Level := p.gammaLut[v.toNat]'v.isLt

end Sys2Proof
end

