-- ==== Sys2Proof/WellFormed.lean ====
section
/-! DEFINITION. Which instructions have an operand that the encoding tables define, and which parameter records
satisfy the constraints of 00_scope.md R8. The widths of operands are in their types. -/

namespace Sys2Proof

/-- The operand is one that the command table defines. SELANIM n = 4..15, SELCOLOR n = 16..31 and SETBRI v = 0 are
"field values it calls undefined" (30_encoding.md R91); they still decode, and are no-ops (log 17). Every other
operand fills its field (30_encoding.md R71). -/
def Instr.wellFormed : Instr → Bool
  | .edge _ _ => true
  | .bgTick _ => true
  | .deframe => true
  | .enq _ => true
  | .deq => true
  | .rollover => true
  | .drain => true
  | .pwrOff => true
  | .pwrOn => true
  | .outWrite _ _ _ => true
  | .nocmd => true
  | .cmdPwrOff => true
  | .cmdPwrOn => true
  | .briDec => true
  | .briInc => true
  | .spdDec => true
  | .spdInc => true
  | .selAnim n => decide (n.toNat ≤ 3)
  | .selColor n => decide (n.toNat ≤ 15)
  | .setBri v => decide (1 ≤ v.toNat)
  | .setSpd _ => true
  | .unknown01 => true
  | .unknown08 _ => true
  | .unknown40 _ => true
  | .bcastAnimOff => true
  | .bcastAnimOn => true

/-- GAMMA_LUT is "monotonic non-decreasing: i <= j implies GAMMA_LUT(i) <= GAMMA_LUT(j)" (00_scope.md R8). -/
def Params.GammaMonotone (p : Params) : Prop :=
  ∀ i j : Level, i ≤ j → p.gamma i ≤ p.gamma j

/-- The constraints of 00_scope.md R8. PWM_PERIOD_COUNTS, the polarity and the widths are in their types. -/
def Params.WellFormed (p : Params) : Prop :=
  0 < p.tUnitX2 ∧ 1 ≤ p.tickSatMax ∧ p.GammaMonotone

end Sys2Proof
end

