-- ==== Sys2Proof/Decode.lean ====
section
/-! DEFINITION. Decoding and encoding, from 30_encoding.md R70 to R94. Decoding is total on every word of every
channel and rejects by name. -/

namespace Sys2Proof

/-- Why a word is no instruction. -/
inductive DecodeReject
  /-- A reserved operation word (30_encoding.md R84, R88). -/
  | reservedEncoding
  /-- A bus write that names no broadcast (45_command_bytes.md R205). -/
  | unnamedBroadcast
  deriving DecidableEq, Repr

/-- P = 1 is RISE (30_encoding.md R71). -/
def Polarity.ofBit (b : BitVec 1) : Polarity := if b = 1#1 then .rise else .fall

/-- The P field of a polarity (30_encoding.md R71). -/
def Polarity.bit : Polarity → BitVec 1
  | .rise => 1#1
  | .fall => 0#1

/-- `decode(w)` of 30_encoding.md R72, its tests in the rule's order. -/
def decodeOp (w : OpWord) : Except DecodeReject Instr :=
  if w.extractLsb' 30 2 = 0b11#2 then
    .ok (.outWrite (w.extractLsb' 20 10) (w.extractLsb' 10 10) (w.extractLsb' 0 10))
  else if w.extractLsb' 28 4 = 0x1#4 ∧ w.extractLsb' 17 11 = 0#11 then
    .ok (.edge (Polarity.ofBit (w.extractLsb' 16 1)) (w.extractLsb' 0 16))
  else if w.extractLsb' 28 4 = 0x2#4 ∧ w.extractLsb' 16 12 = 0#12 then
    .ok (.bgTick (w.extractLsb' 0 16))
  else if w = 0x30000000#32 then .ok .deframe
  else if w.extractLsb' 8 24 = 0x400000#24 then .ok (.enq (w.extractLsb' 0 8))
  else if w = 0x50000000#32 then .ok .deq
  else if w = 0x60000000#32 then .ok .rollover
  else if w = 0x70000000#32 then .ok .drain
  else if w = 0x80000000#32 then .ok .pwrOff
  else if w = 0x90000000#32 then .ok .pwrOn
  else .error .reservedEncoding

/-- A command byte as a row of the table (30_encoding.md R90, R91). Total: every byte is some command byte. -/
def decodeCommand (b : Byte) : Instr :=
  if b = 0x00#8 then .nocmd
  else if b = 0x01#8 then .unknown01
  else if b = 0x02#8 then .cmdPwrOff
  else if b = 0x03#8 then .cmdPwrOn
  else if b = 0x04#8 then .briDec
  else if b = 0x05#8 then .briInc
  else if b = 0x06#8 then .spdDec
  else if b = 0x07#8 then .spdInc
  else if b.extractLsb' 3 5 = 0b00001#5 then .unknown08 (b.extractLsb' 0 3)
  else if b.extractLsb' 4 4 = 0b0001#4 then .selAnim (b.extractLsb' 0 4)
  else if b.extractLsb' 5 3 = 0b001#3 then .selColor (b.extractLsb' 0 5)
  else if b.extractLsb' 6 2 = 0b01#2 then .unknown40 (b.extractLsb' 0 6)
  else if b.extractLsb' 6 2 = 0b10#2 then .setBri (b.extractLsb' 0 6)
  else .setSpd (b.extractLsb' 0 6)

/-- A broadcast byte (30_encoding.md R93). -/
def decodeBroadcast (b : Byte) : Except DecodeReject Instr :=
  if b = 0x01#8 then .ok .bcastAnimOff
  else if b = 0x02#8 then .ok .bcastAnimOn
  else .error .unnamedBroadcast

/-- Decoding of a word on its channel. -/
def decode : PortWord → Except DecodeReject Instr
  | .op w => decodeOp w
  | .command b => .ok (decodeCommand b)
  | .broadcast b => decodeBroadcast b

/-! ## The encoder, from the same tables -/

/-- The word of an instruction, on the channel it travels by (30_encoding.md R73 to R82, R90, R93). -/
def encode : Instr → PortWord
  | .edge p ts => .op (0x10000000#32 ||| p.bit.setWidth 32 <<< 16 ||| ts.setWidth 32)
  | .bgTick ts => .op (0x20000000#32 ||| ts.setWidth 32)
  | .deframe => .op 0x30000000#32
  | .enq b => .op (0x40000000#32 ||| b.setWidth 32)
  | .deq => .op 0x50000000#32
  | .rollover => .op 0x60000000#32
  | .drain => .op 0x70000000#32
  | .pwrOff => .op 0x80000000#32
  | .pwrOn => .op 0x90000000#32
  | .outWrite vr vg vb =>
    .op (0xC0000000#32 ||| vr.setWidth 32 <<< 20 ||| vg.setWidth 32 <<< 10 ||| vb.setWidth 32)
  | .nocmd => .command 0x00#8
  | .cmdPwrOff => .command 0x02#8
  | .cmdPwrOn => .command 0x03#8
  | .briDec => .command 0x04#8
  | .briInc => .command 0x05#8
  | .spdDec => .command 0x06#8
  | .spdInc => .command 0x07#8
  | .selAnim n => .command (0x10#8 ||| n.setWidth 8)
  | .selColor n => .command (0x20#8 ||| n.setWidth 8)
  | .setBri v => .command (0x80#8 ||| v.setWidth 8)
  | .setSpd v => .command (0xC0#8 ||| v.setWidth 8)
  | .unknown01 => .command 0x01#8
  | .unknown08 x => .command (0x08#8 ||| x.setWidth 8)
  | .unknown40 x => .command (0x40#8 ||| x.setWidth 8)
  | .bcastAnimOff => .broadcast 0x01#8
  | .bcastAnimOn => .broadcast 0x02#8

/-! ## Classification of command bytes (30_encoding.md R92) -/

/-- The command byte classes (30_encoding.md R90, R92). -/
inductive CmdClass
  | nocmd
  | pwroff
  | pwron
  | bridec
  | briinc
  | spddec
  | spdinc
  | selanim (n : BitVec 4)
  | selcolor (n : BitVec 5)
  | setbri (v : BitVec 6)
  | setspd (v : BitVec 6)
  | unknown
  deriving DecidableEq, Repr

/-- `cmd_class(b)` of 30_encoding.md R92, its tests in the rule's order. -/
def cmdClass (b : Byte) : CmdClass :=
  if b = 0x00#8 then .nocmd
  else if b = 0x02#8 then .pwroff
  else if b = 0x03#8 then .pwron
  else if b = 0x04#8 then .bridec
  else if b = 0x05#8 then .briinc
  else if b = 0x06#8 then .spddec
  else if b = 0x07#8 then .spdinc
  else if b.extractLsb' 4 4 = 0b0001#4 then
    if (b.extractLsb' 0 4).toNat ≤ 3 then .selanim (b.extractLsb' 0 4) else .unknown
  else if b.extractLsb' 5 3 = 0b001#3 then
    if (b.extractLsb' 0 5).toNat ≤ 15 then .selcolor (b.extractLsb' 0 5) else .unknown
  else if b.extractLsb' 6 2 = 0b10#2 then
    if 1 ≤ (b.extractLsb' 0 6).toNat then .setbri (b.extractLsb' 0 6) else .unknown
  else if b.extractLsb' 6 2 = 0b11#2 then .setspd (b.extractLsb' 0 6)
  else .unknown

/-- The class of a decoded command byte: a row with an operand that R91 calls undefined is UNKNOWN. Operations and
broadcasts have no class. -/
def Instr.cmdClass? : Instr → Option CmdClass
  | .edge _ _ => none
  | .bgTick _ => none
  | .deframe => none
  | .enq _ => none
  | .deq => none
  | .rollover => none
  | .drain => none
  | .pwrOff => none
  | .pwrOn => none
  | .outWrite _ _ _ => none
  | .nocmd => some .nocmd
  | .cmdPwrOff => some .pwroff
  | .cmdPwrOn => some .pwron
  | .briDec => some .bridec
  | .briInc => some .briinc
  | .spdDec => some .spddec
  | .spdInc => some .spdinc
  | .selAnim n => some (if (Instr.selAnim n).wellFormed then .selanim n else .unknown)
  | .selColor n => some (if (Instr.selColor n).wellFormed then .selcolor n else .unknown)
  | .setBri v => some (if (Instr.setBri v).wellFormed then .setbri v else .unknown)
  | .setSpd v => some (.setspd v)
  | .unknown01 => some .unknown
  | .unknown08 _ => some .unknown
  | .unknown40 _ => some .unknown
  | .bcastAnimOff => none
  | .bcastAnimOn => none

/-! ## The rows of spec/opcode_table.json -/

/-- The column "format" of the table. -/
inductive RowFormat
  | opWord
  | commandByte
  | broadcastByte
  deriving DecidableEq, Repr

/-- One row of the table: a word of its format belongs to it iff `word &&& mask = value`. -/
structure OpcodeRow where
  mnemonic : String
  format : RowFormat
  value : BitVec 32
  mask : BitVec 32
  deriving DecidableEq, Repr

/-- The row an instruction stands for, copied from the table. -/
def Instr.row : Instr → OpcodeRow
  | .edge _ _ => ⟨"EDGE", .opWord, 0x10000000#32, 0xFFFE0000#32⟩
  | .bgTick _ => ⟨"BG_TICK", .opWord, 0x20000000#32, 0xFFFF0000#32⟩
  | .deframe => ⟨"DEFRAME", .opWord, 0x30000000#32, 0xFFFFFFFF#32⟩
  | .enq _ => ⟨"ENQ", .opWord, 0x40000000#32, 0xFFFFFF00#32⟩
  | .deq => ⟨"DEQ", .opWord, 0x50000000#32, 0xFFFFFFFF#32⟩
  | .rollover => ⟨"ROLLOVER", .opWord, 0x60000000#32, 0xFFFFFFFF#32⟩
  | .drain => ⟨"DRAIN", .opWord, 0x70000000#32, 0xFFFFFFFF#32⟩
  | .pwrOff => ⟨"PWR_OFF", .opWord, 0x80000000#32, 0xFFFFFFFF#32⟩
  | .pwrOn => ⟨"PWR_ON", .opWord, 0x90000000#32, 0xFFFFFFFF#32⟩
  | .outWrite _ _ _ => ⟨"OUT_WRITE", .opWord, 0xC0000000#32, 0xC0000000#32⟩
  | .nocmd => ⟨"NOCMD", .commandByte, 0x00#32, 0xFF#32⟩
  | .cmdPwrOff => ⟨"PWROFF", .commandByte, 0x02#32, 0xFF#32⟩
  | .cmdPwrOn => ⟨"PWRON", .commandByte, 0x03#32, 0xFF#32⟩
  | .briDec => ⟨"BRIDEC", .commandByte, 0x04#32, 0xFF#32⟩
  | .briInc => ⟨"BRIINC", .commandByte, 0x05#32, 0xFF#32⟩
  | .spdDec => ⟨"SPDDEC", .commandByte, 0x06#32, 0xFF#32⟩
  | .spdInc => ⟨"SPDINC", .commandByte, 0x07#32, 0xFF#32⟩
  | .selAnim _ => ⟨"SELANIM", .commandByte, 0x10#32, 0xF0#32⟩
  | .selColor _ => ⟨"SELCOLOR", .commandByte, 0x20#32, 0xE0#32⟩
  | .setBri _ => ⟨"SETBRI", .commandByte, 0x80#32, 0xC0#32⟩
  | .setSpd _ => ⟨"SETSPD", .commandByte, 0xC0#32, 0xC0#32⟩
  | .unknown01 => ⟨"UNKNOWN", .commandByte, 0x01#32, 0xFF#32⟩
  | .unknown08 _ => ⟨"UNKNOWN", .commandByte, 0x08#32, 0xF8#32⟩
  | .unknown40 _ => ⟨"UNKNOWN", .commandByte, 0x40#32, 0xC0#32⟩
  | .bcastAnimOff => ⟨"BCAST_ANIM_OFF", .broadcastByte, 0x01#32, 0xFF#32⟩
  | .bcastAnimOn => ⟨"BCAST_ANIM_ON", .broadcastByte, 0x02#32, 0xFF#32⟩

/-- The format of a word by its channel. -/
def PortWord.format : PortWord → RowFormat
  | .op _ => .opWord
  | .command _ => .commandByte
  | .broadcast _ => .broadcastByte

/-- The bits of a word, a byte widened with zeros. -/
def PortWord.bits : PortWord → BitVec 32
  | .op w => w
  | .command b => b.setWidth 32
  | .broadcast b => b.setWidth 32

/-- A word belongs to a row of the table. -/
def OpcodeRow.fits (r : OpcodeRow) (w : PortWord) : Bool :=
  w.format == r.format && w.bits &&& r.mask == r.value

/-! ## The table's words (spec/opcode_table.json) -/

/-- The word of `nbits` bits as it stands on a channel: 32 bits is an operation word, 8 bits a command byte
(log 3: the table's two broadcast rows have the same bytes as command rows; a bare byte is read as a command). -/
def tableWord (nbits w : Nat) : PortWord :=
  if nbits ≤ 8 then .command (BitVec.ofNat 8 w) else .op (BitVec.ofNat 32 w)

/-- The instruction the decoder reads from a table word. -/
def decodeTableWord (nbits w : Nat) : Option Instr :=
  match decode (tableWord nbits w) with
  | .ok i => some i
  | .error _ => none

end Sys2Proof
end

