-- ==== Sys2Proof/Machine/State.lean ====
section
/-! DEFINITION. The state of the block (10_state.md R23), of the consumer at its boundary (45_command_bytes.md R190)
and of a run's traces (10_state.md R40), as plain data; the reasons a step can stop; the state after reset. -/

namespace Sys2Proof.Machine

/-- The state of the IR decoder, S0 to S8 (10_state.md R23, R25 to R31). -/
structure IrDecoder where
  /-- S0 POS, 7 bits, legal 0..66 (R23, R25). -/
  pos : BitVec 7
  /-- S1 FRAME_READY (R26). -/
  frameReady : Bool
  /-- S2 BASELINE (R27). -/
  baseline : Micros
  /-- S3 ACC, data bit k in bit k (R28). -/
  acc : BitVec 32
  /-- S4 RAW (R29). -/
  raw : Vector Micros 66
  /-- S5 REPEAT_CNT, 3 bits, legal 0..4 (R23, R30). -/
  repeatCnt : BitVec 3
  /-- S6 LAST_VALID (R31). -/
  lastValid : Bool
  /-- S7 LAST_ADDR (R31). -/
  lastAddr : BitVec 16
  /-- S8 LAST_CMD (R31). -/
  lastCmd : Byte
  deriving DecidableEq, Repr

/-- The state of the command queue, S9 to S11 (10_state.md R32, R33). -/
structure CmdQueue where
  /-- S9 Q_WR. -/
  wr : BitVec 4
  /-- S10 Q_RD. -/
  rd : BitVec 4
  /-- S11 Q_SLOT. -/
  slot : Vector Byte 16
  deriving DecidableEq, Repr

/-- The state of the output stage, S12 to S16 (10_state.md R34 to R37); S17 is `Params.gammaLut`. -/
structure OutputStage where
  /-- S12 PEND. -/
  pend : Rgb Level
  /-- S13 COMM. -/
  comm : Rgb Level
  /-- S14 CH_EN. -/
  chEn : Rgb Bool
  /-- S15 GEN_RUN. -/
  genRun : Bool
  /-- S16 TICKS, 0..TICK_SAT_MAX (log 16). -/
  ticks : Nat
  deriving DecidableEq, Repr

/-- NodeState's mode (45_command_bytes.md R190). -/
inductive Mode
  | static
  | animated
  deriving DecidableEq, Repr

/-- The four predefined animations (30_encoding.md R90: 0=flash, 1=strobe, 2=fade, 3=smooth). -/
inductive AnimName
  | flash
  | strobe
  | fade
  | smooth
  deriving DecidableEq, Repr

/-- NodeState's active_animation: which sequence, and its 'smooth' flag (45_command_bytes.md R190, R198,
log 21). -/
structure ActiveAnim where
  name : AnimName
  smooth : Bool
  deriving DecidableEq, Repr

/-- AnimationState (45_command_bytes.md R190): t is 0..4092. -/
structure AnimState where
  t : Nat
  currentIndex : Nat
  nextIndex : Nat
  deriving DecidableEq, Repr

/-- The consumer's state: NodeState, AnimationState and master_animated (45_command_bytes.md R190, log 16). -/
structure Node where
  isOn : Bool
  mode : Mode
  /-- 1..63. -/
  brightness : Nat
  /-- 0..63. -/
  speed : Nat
  /-- selected_color_index, 0..15. -/
  selectedColor : Nat
  activeAnim : ActiveAnim
  anim : AnimState
  masterAnimated : Bool
  deriving DecidableEq, Repr

/-- The kind of an IR_OUT record (40_ir_decoder.md R126). -/
inductive IrKind
  | frame
  | repeated
  deriving DecidableEq, Repr

/-- An IR_OUT record (40_ir_decoder.md R126). -/
structure IrOut where
  kind : IrKind
  addr : BitVec 16
  cmd : Byte
  deriving DecidableEq, Repr

/-- What the result port delivers (10_state.md R40): a byte for DEQ, a natural number for DRAIN. -/
inductive PortResult
  | byte (b : Byte)
  | count (n : Nat)
  deriving DecidableEq, Repr

/-- One PWM line as the model observes it: "only the pair (enabled, duty) per channel" (10_state.md R36). -/
structure LinePair where
  enabled : Bool
  duty : Level
  deriving DecidableEq, Repr

/-- The three output traces (10_state.md R40): each starts empty and is only ever appended to. -/
structure Ports where
  irOut : List IrOut
  results : List PortResult
  lineHistory : List (Rgb LinePair)
  deriving DecidableEq, Repr

/-- The whole machine. -/
structure State where
  /-- The parameters of 00_scope.md R8, S17 GAMMA_LUT among them; no step writes them (log 4). -/
  params : Params
  /-- S0 to S8. -/
  dec : IrDecoder
  /-- S9 to S11. -/
  queue : CmdQueue
  /-- S12 to S16. -/
  out : OutputStage
  /-- The consumer's state (45_command_bytes.md R190). -/
  node : Node
  /-- The output traces (10_state.md R40). -/
  ports : Ports
  /-- The MODEL's own field: the requests not yet performed, in the order in which they will be (log 1). -/
  pending : List Input
  /-- The refused mark (60_exceptions.md R227). -/
  refusedMark : Bool
  deriving DecidableEq, Repr

/-- A word that has no step in the state it is presented in: "A model that replays such a trace is stuck at that
word" (60_exceptions.md R226, log 5). The block itself raises no fault (R220, R228). -/
inductive Fault
  /-- DEFRAME with FRAME_READY = 0 (40_ir_decoder.md R120). Raised by `execDeframe`. Safe: nothing can be proved of
  a next state that the spec denies. -/
  | noStepFrameNotReady
  /-- ROLLOVER with GEN_RUN = 0 (42_output_stage.md R165). Raised by `execRollover`. Safe, for the same reason. -/
  | noStepGeneratorHalted
  deriving DecidableEq, Repr

/-- Why the model gives a request no meaning. -/
inductive Refusal
  /-- An instruction without a meaning yet. Raised by no arm. Safe. -/
  | notModelled (mnemonic : String)
  /-- `refuse(RESERVED_ENCODING)` (30_encoding.md R84, R88): the run's refused mark is set and no further step is
  taken (60_exceptions.md R227). Raised by `step`. Safe: no behaviour is claimed after it. -/
  | reservedEncoding
  deriving DecidableEq, Repr

/-- Reset of the IR decoder (70_reset_and_hazards.md R250). RAW is "any value" there: DESIGN CHOICE zeros (log 8). -/
def IrDecoder.reset : IrDecoder where
  pos := 0#7
  frameReady := false
  baseline := 0#16
  acc := 0#32
  raw := Vector.replicate 66 0#16
  repeatCnt := 4#3
  lastValid := false
  lastAddr := 0#16
  lastCmd := 0#8

/-- Reset of the queue (70_reset_and_hazards.md R250). Q_SLOT is "any value" there: DESIGN CHOICE zeros (log 9). -/
def CmdQueue.reset : CmdQueue where
  wr := 0#4
  rd := 0#4
  slot := Vector.replicate 16 0#8

/-- Reset of the output stage (70_reset_and_hazards.md R250). -/
def OutputStage.reset : OutputStage where
  pend := Rgb.all 0#10
  comm := Rgb.all 0#10
  chEn := Rgb.all false
  genRun := true
  ticks := 0

/-- Reset of the consumer (45_command_bytes.md R190). active_animation, AnimationState and master_animated have no
reset value in the spec: DESIGN CHOICE (log 10). -/
def Node.reset : Node where
  isOn := true
  mode := .static
  brightness := 63
  speed := 7
  selectedColor := 0
  activeAnim := ⟨.flash, false⟩
  anim := ⟨0, 0, 0⟩
  masterAnimated := false

/-- The machine right after reset (70_reset_and_hazards.md R250): the traces empty, the refused mark clear, no
request made yet. -/
def State.reset : State where
  params := Config.params
  dec := IrDecoder.reset
  queue := CmdQueue.reset
  out := OutputStage.reset
  node := Node.reset
  ports := ⟨[], [], []⟩
  pending := []
  refusedMark := false

end Sys2Proof.Machine
end

