-- ==== Sys2Proof/Machine/Operands.lean ====
section
/-! DEFINITION. What is computed from operands: durations and their windows (00_scope.md R13, 40_ir_decoder.md R100
to R102), the data bits and bytes of a frame (30_encoding.md R89), the gamma lookup (42_output_stage.md R162), the
scaling of a static color (45_command_bytes.md R199). -/

namespace Sys2Proof

/-- KEYMAP applied (00_scope.md R8, 40_ir_decoder.md R127). -/
def Params.keymapByte (p : Params) (addr : BitVec 16) (cmd : Byte) (animated : Bool) : Option Byte :=
  (p.keymap.find? fun e => e.addr == addr && e.cmd == cmd && e.animated == animated).map (·.code)

end Sys2Proof

namespace Sys2Proof.Machine

/-! ## Durations -/

/-- `(TS - BASELINE) mod 2^16` (40_ir_decoder.md R101). -/
def duration (ts baseline : Micros) : Micros := ts - baseline

/-- A pulse event carries the polarity PULSE_END_EDGE; any other is a pause event (40_ir_decoder.md R102). -/
def isPulse (P : Params) (p : Polarity) : Bool := p == P.pulseEndEdge

/-- `in_win(d, m)` with unit `t` half-microseconds: nom/2 <= d <= 3*nom/2, both inclusive (00_scope.md R13). -/
def inWin (t d m : Nat) : Bool := decide (m * t ≤ 4 * d) && decide (4 * d ≤ 3 * m * t)

/-- `in_span(d, m_lo, m_hi)` (00_scope.md R13). -/
def inSpan (t d lo hi : Nat) : Bool := decide (lo * t ≤ 4 * d) && decide (4 * d ≤ 3 * hi * t)

/-- `below_mid(d, m_a, m_b)`, strict (00_scope.md R13). -/
def belowMid (t d a b : Nat) : Bool := decide (4 * d < (a + b) * t)

/-- The start pulse's window (40_ir_decoder.md R100, R104). -/
def isStartPulse (P : Params) (d : Micros) : Bool := inWin P.tUnitX2 d.toNat Config.mStartPulse

/-- The lead pause's span, repeat through start (40_ir_decoder.md R100, R105). -/
def isLeadPause (P : Params) (d : Micros) : Bool :=
  inSpan P.tUnitX2 d.toNat Config.mRepeatPause Config.mStartPause

/-- A lead pause is a repeat iff it is below the midpoint of repeat and start pause (40_ir_decoder.md R106). -/
def isRepeatPause (P : Params) (d : Micros) : Bool :=
  belowMid P.tUnitX2 d.toNat Config.mRepeatPause Config.mStartPause

/-- The bit pulse's window (40_ir_decoder.md R100, R107). -/
def isBitPulse (P : Params) (d : Micros) : Bool := inWin P.tUnitX2 d.toNat Config.mBitPulse

/-- The bit pause's span, bit-0 through bit-1 (40_ir_decoder.md R100, R108). -/
def isBitPause (P : Params) (d : Micros) : Bool :=
  inSpan P.tUnitX2 d.toNat Config.mBit0Pause Config.mBit1Pause

/-- The data bit of a bit pause: 0 iff below the midpoint, a tie is 1 (40_ir_decoder.md R108). -/
def pauseBit (P : Params) (d : Micros) : Bool :=
  !belowMid P.tUnitX2 d.toNat Config.mBit0Pause Config.mBit1Pause

/-! ## Positions (10_state.md R22) -/

/-- The explicit state machine that POS stands for (10_state.md R22). -/
inductive Phase
  | awaitingStart
  | awaitingLeadPause
  /-- Awaiting the pulse of data bit `k`. -/
  | awaitingBitPulse (k : Nat)
  /-- Awaiting the pause of data bit `k`. -/
  | awaitingBitPause (k : Nat)
  /-- POS = 66: frame complete, awaiting DEFRAME. -/
  | complete
  deriving DecidableEq, Repr

/-- The phase of a position: POS = 2 + 2k + ph (10_state.md R22); the arms of EDGE's `if` chain (40_ir_decoder.md
R103). -/
def phaseOf (pos : Nat) : Phase :=
  if pos = 0 then .awaitingStart
  else if pos = 1 then .awaitingLeadPause
  else if 66 ≤ pos then .complete
  else if pos % 2 = 0 then .awaitingBitPulse ((pos - 2) / 2)
  else .awaitingBitPause ((pos - 3) / 2)

/-! ## Frame bits and bytes -/

/-- `ACC[k] <- b`: "The write replaces the bit's old value" (40_ir_decoder.md R108). -/
def setAccBit (acc : BitVec 32) (k : Nat) (b : Bool) : BitVec 32 :=
  if b then acc ||| (1#32 <<< k) else acc &&& ~~~(1#32 <<< k)

/-- `ACC_BYTE[j] = ACC[8j+7:8j]` (10_state.md R28). -/
def accByte (acc : BitVec 32) (j : Nat) : Byte := acc.extractLsb' (8 * j) 8

/-- Byte 2 is the complement of byte 3 (40_ir_decoder.md R121). -/
def checksumValid (acc : BitVec 32) : Bool := accByte acc 2 == ~~~(accByte acc 3)

/-- `{b1, b0}`, byte 0 low (40_ir_decoder.md R122, 30_encoding.md R89). -/
def frameAddr (acc : BitVec 32) : BitVec 16 := accByte acc 1 ++ accByte acc 0

/-- The command, byte 2 (40_ir_decoder.md R122). -/
def frameCmd (acc : BitVec 32) : Byte := accByte acc 2

/-! ## Levels -/

/-- GAMMA_LUT on each channel (42_output_stage.md R161, R162). -/
def gammaTriple (P : Params) (v : Rgb Level) : Rgb Level := v.map P.gamma

/-- `value * brightness / 63`, integer division (45_command_bytes.md R199). Within brightness 0..63 the result is at
most `value` (00_scope.md R16); above it, which no reachable state shows, the low ten bits are kept (log 19). -/
def scaleLevel (brightness : Nat) (v : Level) : Level := BitVec.ofNat 10 (v.toNat * brightness / 63)

/-- PALETTE(n) for n = 0..15 (00_scope.md R8). -/
def paletteColor (P : Params) (n : Fin 16) : Rgb Level := P.palette[n.val]'n.isLt

/-- ANIM_SMOOTH(n) for n = 0..3 (00_scope.md R8). -/
def smoothFlag (P : Params) (n : Fin 4) : Bool := P.animSmooth[n.val]'n.isLt

/-- The animation a SELANIM operand 0..3 names (30_encoding.md R90). -/
def animName (n : Fin 4) : AnimName :=
  if n = 0 then .flash else if n = 1 then .strobe else if n = 2 then .fade else .smooth

end Sys2Proof.Machine
end

