-- ==== Sys2Proof/Machine/Flags.lean ====
section
/-! DEFINITION. The one-bit facts of the block. It has no arithmetic flags (10_state.md R39): "empty" and "full" are
functions of the queue's indices (R32), the channel enables are a comparison (42_output_stage.md R167), and the PWM
lines are a function of state (10_state.md R36). -/

namespace Sys2Proof.Machine

/-- `(i + 1) & Q_MASK` (41_command_queue.md R140). -/
def nextIndex (i : BitVec 4) : BitVec 4 := (i + 1#4) &&& Config.qMask

/-- Empty iff Q_WR = Q_RD (10_state.md R32). -/
def CmdQueue.isEmpty (q : CmdQueue) : Bool := q.wr == q.rd

/-- Full iff ((Q_WR + 1) & Q_MASK) = Q_RD (10_state.md R32). -/
def CmdQueue.isFull (q : CmdQueue) : Bool := nextIndex q.wr == q.rd

/-- The number of held items, (Q_WR - Q_RD) & Q_MASK (10_state.md R32). -/
def CmdQueue.count (q : CmdQueue) : Nat := ((q.wr - q.rd) &&& Config.qMask).toNat

/-- CH_EN of a committed duty: 0 below DUTY_OFF_THRESHOLD, else 1 (42_output_stage.md R167). -/
def channelEnable (duty : Level) : Bool := !decide (duty.toNat < Config.dutyOffThreshold)

/-- LINE[c] as the pair (enabled, duty): inactive if CH_EN[c] = 0 or GEN_RUN = 0; the duty is COMM[c]
(10_state.md R36, 42_output_stage.md R169, log 12). -/
def OutputStage.line (o : OutputStage) (c : Channel) : LinePair :=
  ⟨o.chEn.get c && o.genRun, o.comm.get c⟩

/-- The three lines. -/
def OutputStage.lines (o : OutputStage) : Rgb LinePair := ⟨o.line .red, o.line .green, o.line .blue⟩

/-- For how many counts of a period a line is active: COMM[c] if enabled, none otherwise (10_state.md R36). -/
def LinePair.activeCounts (l : LinePair) : Nat := if l.enabled then l.duty.toNat else 0

/-- For how many counts of a period a line is inactive: "the rest" of PWM_PERIOD_COUNTS (10_state.md R36). -/
def LinePair.inactiveCounts (P : Params) (l : LinePair) : Nat := P.pwmPeriod.counts - l.activeCounts

/-- Whether an instruction has a step in a state: DEFRAME waits for FRAME_READY = 1 and ROLLOVER for GEN_RUN = 1;
"Every other operation has a step in every state" (60_exceptions.md R226, R223, 20_memory.md R63). -/
def enabled (i : Instr) (s : State) : Bool :=
  match i with
  | .edge _ _ => true
  | .bgTick _ => true
  | .deframe => s.dec.frameReady
  | .enq _ => true
  | .deq => true
  | .rollover => s.out.genRun
  | .drain => true
  | .pwrOff => true
  | .pwrOn => true
  | .outWrite _ _ _ => true
  | .nocmd => true
  | .cmdPwrOff => true
  | .cmdPwrOn => true
  | .briDec => true
  | .briInc => true
  | .spdDec => true
  | .spdInc => true
  | .selAnim _ => true
  | .selColor _ => true
  | .setBri _ => true
  | .setSpd _ => true
  | .unknown01 => true
  | .unknown08 _ => true
  | .unknown40 _ => true
  | .bcastAnimOff => true
  | .bcastAnimOn => true

end Sys2Proof.Machine
end

