-- ==== Sys2Proof/Machine/Ops.lean ====
section
/-! DEFINITION. The named operations over the state. The block has no exception to take or to return from
(60_exceptions.md R220, R222), so there is no such operation here. -/

namespace Sys2Proof.Machine

/-! ## Ports -/

/-- `emit IR_OUT`: append a record, if there is one, to the IR output trace (00_scope.md R12, 40_ir_decoder.md R126). -/
def State.emit (r : Option IrOut) (s : State) : State :=
  { s with ports := { s.ports with irOut := s.ports.irOut ++ r.toList } }

/-- `return v`: deliver a result on the result port (00_scope.md R12). -/
def State.deliver (r : PortResult) (s : State) : State :=
  { s with ports := { s.ports with results := s.ports.results ++ [r] } }

/-- The PWM line function's value after a step joins its history (10_state.md R40, log 12). -/
def State.recordLines (s : State) : State :=
  { s with ports := { s.ports with lineHistory := s.ports.lineHistory ++ [s.out.lines] } }

/-! ## IR decoder (40_ir_decoder.md) -/

/-- RAW[p] <- d and POS <- p', an accepted duration (40_ir_decoder.md R103, 20_memory.md R51). -/
def IrDecoder.accept (x : IrDecoder) (p : Nat) (d : Micros) (p' : BitVec 7) : IrDecoder :=
  { x with raw := x.raw.setIfInBounds p d, pos := p' }

/-- "An abort sets POS <- 0 and nothing else" (40_ir_decoder.md R109). -/
def IrDecoder.abort (x : IrDecoder) : IrDecoder := { x with pos := 0#7 }

/-- The record that an honoured repeat emits, if any (40_ir_decoder.md R113, R123). -/
def IrDecoder.repeatRecord (P : Params) (x : IrDecoder) : Option IrOut :=
  if x.lastValid && x.lastAddr == P.acceptedAddress then some ⟨.repeated, x.lastAddr, x.lastCmd⟩ else none

/-- EDGE at position 0 (40_ir_decoder.md R104). -/
def IrDecoder.edgeAtStart (P : Params) (pulse : Bool) (d : Micros) (x : IrDecoder) : IrDecoder :=
  if pulse && isStartPulse P d then x.accept 0 d 1#7 else x

/-- EDGE at position 1 (40_ir_decoder.md R105, R106, R113). -/
def IrDecoder.edgeAtLead (P : Params) (pulse : Bool) (d : Micros) (x : IrDecoder) : IrDecoder × Option IrOut :=
  if !pulse && isLeadPause P d then
    if isRepeatPause P d then
      if x.repeatCnt.toNat < Config.repeatCap then
        ({ x.accept 1 d 0#7 with repeatCnt := 0#3 }, x.repeatRecord P)
      else (x.accept 1 d 0#7, none)
    else (x.accept 1 d 2#7, none)
  else (x.abort, none)

/-- EDGE where the pulse of bit `k` is expected, at position 2 + 2k (40_ir_decoder.md R107). -/
def IrDecoder.edgeAtBitPulse (P : Params) (pulse : Bool) (d : Micros) (x : IrDecoder) : IrDecoder :=
  if pulse && isBitPulse P d then x.accept x.pos.toNat d (x.pos + 1#7) else x.abort

/-- EDGE where the pause of bit `k` is expected, at position 3 + 2k (40_ir_decoder.md R108); the one at position 65
completes the frame (R110). -/
def IrDecoder.edgeAtBitPause (P : Params) (k : Nat) (pulse : Bool) (d : Micros) (x : IrDecoder) : IrDecoder :=
  if !pulse && isBitPause P d then
    { x.accept x.pos.toNat d (x.pos + 1#7) with
      acc := setAccBit x.acc k (pauseBit P d)
      frameReady := x.frameReady || x.pos == 65#7 }
  else x.abort

/-- The arms of EDGE's `if` chain, after the baseline is set and the drop tested (40_ir_decoder.md R103). POS = 66
with FRAME_READY = 0, which no reachable state shows, changes nothing (log 7). -/
def IrDecoder.classify (P : Params) (pulse : Bool) (d : Micros) (x : IrDecoder) : IrDecoder × Option IrOut :=
  match phaseOf x.pos.toNat with
  | .awaitingStart => (x.edgeAtStart P pulse d, none)
  | .awaitingLeadPause => x.edgeAtLead P pulse d
  | .awaitingBitPulse _ => (x.edgeAtBitPulse P pulse d, none)
  | .awaitingBitPause k => (x.edgeAtBitPause P k pulse d, none)
  | .complete => (x, none)

/-- EDGE (40_ir_decoder.md R103): the duration is taken from the old baseline (R101), every edge sets the baseline,
and an edge is dropped while a frame waits (R111). -/
def IrDecoder.edge (P : Params) (p : Polarity) (ts : Micros) (x : IrDecoder) : IrDecoder × Option IrOut :=
  if x.frameReady then ({ x with baseline := ts }, none)
  else { x with baseline := ts }.classify P (isPulse P p) (duration ts x.baseline)

/-- BG_TICK (40_ir_decoder.md R114, R115). -/
def IrDecoder.tick (ts : Micros) (x : IrDecoder) : IrDecoder :=
  { x with repeatCnt := BitVec.ofNat 3 (min (x.repeatCnt.toNat + 1) Config.repeatCap), pos := 0#7, baseline := ts }

/-- The record that a completed frame emits, if any (40_ir_decoder.md R120, R121, R123). -/
def IrDecoder.frameRecord (P : Params) (x : IrDecoder) : Option IrOut :=
  if checksumValid x.acc && frameAddr x.acc == P.acceptedAddress then
    some ⟨.frame, frameAddr x.acc, frameCmd x.acc⟩
  else none

/-- DEFRAME's effect on the decoder (40_ir_decoder.md R120): a valid frame becomes the last frame and resets the
repeat counter (R122), an invalid one is dropped (R121). -/
def IrDecoder.deframe (x : IrDecoder) : IrDecoder :=
  if checksumValid x.acc then
    { x with
      lastAddr := frameAddr x.acc
      lastCmd := frameCmd x.acc
      lastValid := true
      repeatCnt := 0#3
      frameReady := false
      pos := 0#7 }
  else { x with frameReady := false, pos := 0#7 }

/-! ## Command queue (41_command_queue.md) -/

/-- Q_SLOT[i]; every 4-bit index is in range (20_memory.md R52). -/
def CmdQueue.read (q : CmdQueue) (i : BitVec 4) : Byte := q.slot[i.toNat]'i.isLt

/-- ENQ (41_command_queue.md R141): a full queue drops the byte (R142). -/
def CmdQueue.enqueue (b : Byte) (q : CmdQueue) : CmdQueue :=
  if q.isFull then q
  else { q with slot := q.slot.set q.wr.toNat b q.wr.isLt, wr := nextIndex q.wr }

/-- The byte DEQ returns (41_command_queue.md R145): the sentinel if empty (R146). -/
def CmdQueue.front (q : CmdQueue) : Byte := if q.isEmpty then Config.sentinel else q.read q.rd

/-- DEQ's effect on the queue (41_command_queue.md R145); the slot just read keeps its byte. -/
def CmdQueue.dequeue (q : CmdQueue) : CmdQueue := if q.isEmpty then q else { q with rd := nextIndex q.rd }

/-! ## Output stage (42_output_stage.md) -/

/-- OUT_WRITE (42_output_stage.md R161). -/
def OutputStage.write (P : Params) (v : Rgb Level) (o : OutputStage) : OutputStage :=
  { o with pend := gammaTriple P v }

/-- ROLLOVER's effect (42_output_stage.md R165): commit (R166), enables from the new duties (R167), one tick (R168). -/
def OutputStage.roll (P : Params) (o : OutputStage) : OutputStage :=
  { o with
    comm := o.pend
    chEn := o.pend.map channelEnable
    ticks := min (o.ticks + 1) P.tickSatMax }

/-- DRAIN's effect (42_output_stage.md R172); the result is the old TICKS. -/
def OutputStage.drained (o : OutputStage) : OutputStage := { o with ticks := 0 }

/-- PWR_OFF (42_output_stage.md R175). -/
def OutputStage.halt (o : OutputStage) : OutputStage :=
  { o with genRun := false, chEn := Rgb.all false }

/-- PWR_ON (42_output_stage.md R178, R179). -/
def OutputStage.resume (o : OutputStage) : OutputStage := { o with genRun := true }

/-! ## Lifting a unit's operation to the whole state -/

/-- Change the IR decoder only. -/
def State.withDec (f : IrDecoder → IrDecoder) (s : State) : State := { s with dec := f s.dec }

/-- Change the command queue only. -/
def State.withQueue (f : CmdQueue → CmdQueue) (s : State) : State := { s with queue := f s.queue }

/-- Change the output stage only. -/
def State.withOut (f : OutputStage → OutputStage) (s : State) : State := { s with out := f s.out }

/-- Change the consumer only. -/
def State.withNode (f : Node → Node) (s : State) : State := { s with node := f s.node }

end Sys2Proof.Machine
end

