-- ==== Sys2Proof/Machine/CommandQueue.lean ====
section
/-! DEFINITION. The meanings of ENQ and DEQ (41_command_queue.md). -/

namespace Sys2Proof.Machine

/-- ENQ (41_command_queue.md R141). -/
def execEnq (b : Byte) (s : State) : Host.Outcome State Fault Refusal :=
  .next (s.withQueue (·.enqueue b))

/-- DEQ (41_command_queue.md R145). -/
def execDeq (s : State) : Host.Outcome State Fault Refusal :=
  .next ((s.withQueue (·.dequeue)).deliver (.byte s.queue.front))

end Sys2Proof.Machine
end

