-- ==== Sys2Proof/Machine/Consumer.lean ====
section
/-! DEFINITION. The meanings of the command bytes and of the broadcast bytes (45_command_bytes.md). A command that
issues an operation of the output stage performs it in the same step (log 13). Every command applies whatever is_on
is (R206). -/

namespace Sys2Proof.Machine

/-- NOCMD: nothing (45_command_bytes.md R191). -/
def execNocmd (s : State) : Host.Outcome State Fault Refusal := .next s

/-- PWROFF: `is_on <- false ; issue PWR_OFF` (45_command_bytes.md R192). -/
def execCmdPwrOff (s : State) : Host.Outcome State Fault Refusal :=
  .next ((s.withNode fun n => { n with isOn := false }).withOut (·.halt))

/-- PWRON: `is_on <- true ; issue PWR_ON` (45_command_bytes.md R193). -/
def execCmdPwrOn (s : State) : Host.Outcome State Fault Refusal :=
  .next ((s.withNode fun n => { n with isOn := true }).withOut (·.resume))

/-- BRIDEC: `brightness <- max(brightness - 1, 1)` (45_command_bytes.md R194). The pending duties stay (log 20). -/
def execBriDec (s : State) : Host.Outcome State Fault Refusal :=
  .next (s.withNode fun n => { n with brightness := max (n.brightness - 1) 1 })

/-- BRIINC: `brightness <- min(brightness + 1, 63)` (45_command_bytes.md R195). -/
def execBriInc (s : State) : Host.Outcome State Fault Refusal :=
  .next (s.withNode fun n => { n with brightness := min (n.brightness + 1) 63 })

/-- SPDDEC: `speed <- max(speed - 1, 0)` (45_command_bytes.md R196); subtraction of naturals stops at 0. -/
def execSpdDec (s : State) : Host.Outcome State Fault Refusal :=
  .next (s.withNode fun n => { n with speed := n.speed - 1 })

/-- SPDINC: `speed <- min(speed + 1, 63)` (45_command_bytes.md R197). -/
def execSpdInc (s : State) : Host.Outcome State Fault Refusal :=
  .next (s.withNode fun n => { n with speed := min (n.speed + 1) 63 })

/-- SELANIM (45_command_bytes.md R198): for n <= 3 the animation, a fresh AnimationState and mode Animated; for
n = 4..15 nothing. -/
def execSelAnim (n : BitVec 4) (s : State) : Host.Outcome State Fault Refusal :=
  .next (if h : n.toNat < 4 then
    s.withNode fun x =>
      { x with
        activeAnim := ⟨animName ⟨n.toNat, h⟩, smoothFlag s.params ⟨n.toNat, h⟩⟩
        anim := ⟨0, 0, 1⟩
        mode := .animated }
  else s)

/-- SELCOLOR (45_command_bytes.md R199): for n <= 15 the color, mode Static and an OUT_WRITE of the scaled palette
color; for n = 16..31 nothing. -/
def execSelColor (n : BitVec 5) (s : State) : Host.Outcome State Fault Refusal :=
  .next (if h : n.toNat < 16 then
    (s.withNode fun x => { x with selectedColor := n.toNat, mode := .static }).withOut
      (·.write s.params ((paletteColor s.params ⟨n.toNat, h⟩).map (scaleLevel s.node.brightness)))
  else s)

/-- SETBRI: `if v >= 1 then brightness <- v else nothing` (45_command_bytes.md R200). -/
def execSetBri (v : BitVec 6) (s : State) : Host.Outcome State Fault Refusal :=
  .next (if 1 ≤ v.toNat then s.withNode fun n => { n with brightness := v.toNat } else s)

/-- SETSPD: `speed <- v` (45_command_bytes.md R201). -/
def execSetSpd (v : BitVec 6) (s : State) : Host.Outcome State Fault Refusal :=
  .next (s.withNode fun n => { n with speed := v.toNat })

/-- UNKNOWN 0x01: nothing, "never a fault" (45_command_bytes.md R202). -/
def execUnknown01 (s : State) : Host.Outcome State Fault Refusal := .next s

/-- UNKNOWN 0x08..0x0F: nothing (45_command_bytes.md R202). -/
def execUnknown08 (_x : BitVec 3) (s : State) : Host.Outcome State Fault Refusal := .next s

/-- UNKNOWN 0x40..0x7F: nothing (45_command_bytes.md R202). -/
def execUnknown40 (_x : BitVec 6) (s : State) : Host.Outcome State Fault Refusal := .next s

/-- Broadcast 0x01: `master_animated <- false` (45_command_bytes.md R203). -/
def execBcastAnimOff (s : State) : Host.Outcome State Fault Refusal :=
  .next (s.withNode fun n => { n with masterAnimated := false })

/-- Broadcast 0x02: `master_animated <- true` (45_command_bytes.md R204). -/
def execBcastAnimOn (s : State) : Host.Outcome State Fault Refusal :=
  .next (s.withNode fun n => { n with masterAnimated := true })

end Sys2Proof.Machine
end

