-- ==== Sys2Proof/Machine/IrDecoder.lean ====
section
/-! DEFINITION. The meanings of EDGE, BG_TICK and DEFRAME (40_ir_decoder.md). -/

namespace Sys2Proof.Machine

/-- EDGE (40_ir_decoder.md R103). -/
def execEdge (p : Polarity) (ts : Micros) (s : State) : Host.Outcome State Fault Refusal :=
  .next ((s.withDec fun x => (x.edge s.params p ts).1).emit (s.dec.edge s.params p ts).2)

/-- BG_TICK (40_ir_decoder.md R114). -/
def execBgTick (ts : Micros) (s : State) : Host.Outcome State Fault Refusal :=
  .next (s.withDec (·.tick ts))

/-- DEFRAME (40_ir_decoder.md R120). With FRAME_READY = 0 there is no step (60_exceptions.md R226, log 5). -/
def execDeframe (s : State) : Host.Outcome State Fault Refusal :=
  if s.dec.frameReady then .next ((s.withDec (·.deframe)).emit (s.dec.frameRecord s.params))
  else .fault .noStepFrameNotReady

end Sys2Proof.Machine
end

