-- ==== Sys2Proof/Machine/Output.lean ====
section
/-! DEFINITION. The meanings of ROLLOVER, DRAIN, PWR_OFF, PWR_ON and OUT_WRITE (42_output_stage.md). -/

namespace Sys2Proof.Machine

/-- ROLLOVER (42_output_stage.md R165). With GEN_RUN = 0 there is no step (60_exceptions.md R226, log 5). -/
def execRollover (s : State) : Host.Outcome State Fault Refusal :=
  if s.out.genRun then .next (s.withOut (·.roll s.params)) else .fault .noStepGeneratorHalted

/-- DRAIN (42_output_stage.md R172). -/
def execDrain (s : State) : Host.Outcome State Fault Refusal :=
  .next ((s.withOut (·.drained)).deliver (.count s.out.ticks))

/-- PWR_OFF (42_output_stage.md R175). -/
def execPwrOff (s : State) : Host.Outcome State Fault Refusal := .next (s.withOut (·.halt))

/-- PWR_ON (42_output_stage.md R178). -/
def execPwrOn (s : State) : Host.Outcome State Fault Refusal := .next (s.withOut (·.resume))

/-- OUT_WRITE (42_output_stage.md R161). -/
def execOutWrite (vr vg vb : Level) (s : State) : Host.Outcome State Fault Refusal :=
  .next (s.withOut (·.write s.params ⟨vr, vg, vb⟩))

end Sys2Proof.Machine
end

