-- ==== Sys2Proof/Machine/Dispatch.lean ====
section
/-! DEFINITION. Every instruction's meaning, one arm per constructor. -/

namespace Sys2Proof.Machine

def exec (i : Instr) (s : State) : Host.Outcome State Fault Refusal :=
  match i with
  | .edge p ts => Sys2Proof.Machine.execEdge p ts s
  | .bgTick ts => Sys2Proof.Machine.execBgTick ts s
  | .deframe => Sys2Proof.Machine.execDeframe s
  | .enq b => Sys2Proof.Machine.execEnq b s
  | .deq => Sys2Proof.Machine.execDeq s
  | .rollover => Sys2Proof.Machine.execRollover s
  | .drain => Sys2Proof.Machine.execDrain s
  | .pwrOff => Sys2Proof.Machine.execPwrOff s
  | .pwrOn => Sys2Proof.Machine.execPwrOn s
  | .outWrite vr vg vb => Sys2Proof.Machine.execOutWrite vr vg vb s
  | .nocmd => Sys2Proof.Machine.execNocmd s
  | .cmdPwrOff => Sys2Proof.Machine.execCmdPwrOff s
  | .cmdPwrOn => Sys2Proof.Machine.execCmdPwrOn s
  | .briDec => Sys2Proof.Machine.execBriDec s
  | .briInc => Sys2Proof.Machine.execBriInc s
  | .spdDec => Sys2Proof.Machine.execSpdDec s
  | .spdInc => Sys2Proof.Machine.execSpdInc s
  | .selAnim n => Sys2Proof.Machine.execSelAnim n s
  | .selColor n => Sys2Proof.Machine.execSelColor n s
  | .setBri v => Sys2Proof.Machine.execSetBri v s
  | .setSpd v => Sys2Proof.Machine.execSetSpd v s
  | .unknown01 => Sys2Proof.Machine.execUnknown01 s
  | .unknown08 x => Sys2Proof.Machine.execUnknown08 x s
  | .unknown40 x => Sys2Proof.Machine.execUnknown40 x s
  | .bcastAnimOff => Sys2Proof.Machine.execBcastAnimOff s
  | .bcastAnimOn => Sys2Proof.Machine.execBcastAnimOn s

end Sys2Proof.Machine
end

