-- ==== Sys2Proof/Machine/Fetch.lean ====
section
/-! DEFINITION. What the next request of a run asks for. The block fetches no instructions (20_memory.md R64): its
requests come from its agents, in an order the spec leaves open (20_memory.md R61), and stand in `pending` (log 1). -/

namespace Sys2Proof.Machine

/-- What a request asks for. -/
inductive Fetched
  /-- Perform this instruction. -/
  | run (i : Instr)
  /-- Nothing to perform: a bus write that names no broadcast (45_command_bytes.md R205), a record that KEYMAP maps
  to no byte (40_ir_decoder.md R127), or an index at which the trace holds no such entry (log 14). -/
  | nothing
  /-- A reserved operation word (30_encoding.md R84). -/
  | reserved
  deriving DecidableEq, Repr

/-- A word presented on its channel. -/
def fetchWord (w : PortWord) : Fetched :=
  match decode w with
  | .ok i => .run i
  | .error .reservedEncoding => .reserved
  | .error .unnamedBroadcast => .nothing

/-- "The surrounding software maps each IR_OUT record through KEYMAP(addr, cmd, master_animated). If KEYMAP gives a
command byte, the software issues ENQ with it" (40_ir_decoder.md R127). DESIGN CHOICE (log 22): the master_animated
given to KEYMAP is the one of the state in which the request is performed, and the ENQ is that same step, with no step
of another agent in between. -/
def routeWord (s : State) (r : IrOut) : Option Instr :=
  (s.params.keymapByte r.addr r.cmd s.node.masterAnimated).map Instr.enq

/-- A request, in the state it meets. -/
def fetch (x : Input) (s : State) : Fetched :=
  match x with
  | .present w => fetchWord w
  | .routeRecord k =>
    match s.ports.irOut[k]? with
    | some r =>
      match routeWord s r with
      | some i => .run i
      | none => .nothing
    | none => .nothing
  | .dispatchResult k =>
    match s.ports.results[k]? with
    | some (.byte b) => .run (decodeCommand b)
    | some (.count _) => .nothing
    | none => .nothing

/-- A performed instruction's next state, with the lines it leaves recorded (10_state.md R40). -/
def afterExec : Host.Outcome State Fault Refusal → Host.Outcome State Fault Refusal
  | .next s => .next s.recordLines
  | .fault r => .fault r
  | .refused r => .refused r

end Sys2Proof.Machine
end

