-- ==== Sys2Proof/Machine/Step.lean ====
section
/-! DEFINITION. One step of the machine: the next pending request is performed. -/

namespace Sys2Proof.Machine

/-- One step (20_memory.md R58, R61). With the refused mark set there is no further step (60_exceptions.md R227). With
no request pending nothing happens (log 2). A reserved word sets the refused mark and has no other effect (R227,
log 6). Any other request is taken from the list and its instruction performed. -/
def step (s : State) : Host.Outcome State Fault Refusal :=
  if s.refusedMark then .refused .reservedEncoding
  else
    match s.pending with
    | [] => .next s
    | x :: rest =>
      match fetch x s with
      | .run i => afterExec (exec i { s with pending := rest })
      | .nothing => .next { s with pending := rest }
      | .reserved => .next { s with refusedMark := true }

/-- `s` with the table word presented as its next request (log 3). -/
def State.withFetchWord (s : State) (nbits w : Nat) : State :=
  { s with pending := .present (tableWord nbits w) :: s.pending }

end Sys2Proof.Machine
end

