-- ==== Sys2Proof/Machine/Pseudo.lean ====
section
/-! DEFINITION. The assembler's lines (30_encoding.md R85) and the pseudo-operations (R86). -/

namespace Sys2Proof

/-- The assembler line of an operation (30_encoding.md R85). Command and broadcast bytes have no assembler syntax. -/
def Instr.asm : Instr → Option String
  | .edge .rise ts => some ("EDGE RISE, " ++ toString ts.toNat)
  | .edge .fall ts => some ("EDGE FALL, " ++ toString ts.toNat)
  | .bgTick ts => some ("BGTICK " ++ toString ts.toNat)
  | .deframe => some "DEFRAME"
  | .enq b => some ("ENQ " ++ toString b.toNat)
  | .deq => some "DEQ"
  | .rollover => some "ROLLOVER"
  | .drain => some "DRAIN"
  | .pwrOff => some "PWROFF"
  | .pwrOn => some "PWRON"
  | .outWrite r g b =>
    some ("OUTW " ++ toString r.toNat ++ ", " ++ toString g.toNat ++ ", " ++ toString b.toNat)
  | .nocmd => none
  | .cmdPwrOff => none
  | .cmdPwrOn => none
  | .briDec => none
  | .briInc => none
  | .spdDec => none
  | .spdInc => none
  | .selAnim _ => none
  | .selColor _ => none
  | .setBri _ => none
  | .setSpd _ => none
  | .unknown01 => none
  | .unknown08 _ => none
  | .unknown40 _ => none
  | .bcastAnimOff => none
  | .bcastAnimOn => none

/-- The other polarity. -/
def Polarity.other : Polarity → Polarity
  | .rise => .fall
  | .fall => .rise

/-- The 32 data bits of a frame in frame order: bit k is bit (k mod 8) of byte (k div 8), with the bytes address low,
address high, command, command complement (30_encoding.md R86, R89). -/
def frameWord (addr : BitVec 16) (cmd : Byte) : BitVec 32 := ~~~cmd ++ cmd ++ addr

/-- The edges of the data bits from time `t` on, and the end of the stop burst (30_encoding.md R86). -/
def bitEdges (pu : Polarity) : Micros → List Bool → List Instr
  | t, [] => [.edge pu (t + 562#16)]
  | t, b :: bs =>
    let t1 := t + 562#16
    let t2 := t1 + (if b then 1687#16 else 562#16)
    .edge pu t1 :: .edge pu.other t2 :: bitEdges pu t2 bs

/-- IRFRAME t0, A, C: 68 EDGE words (30_encoding.md R86). -/
def irFrame (P : Params) (t0 : Micros) (addr : BitVec 16) (cmd : Byte) : List Instr :=
  .edge P.pulseEndEdge.other t0 :: .edge P.pulseEndEdge (t0 + 9000#16)
    :: .edge P.pulseEndEdge.other (t0 + 9000#16 + 4500#16)
    :: bitEdges P.pulseEndEdge (t0 + 9000#16 + 4500#16) ((List.range 32).map (frameWord addr cmd).getLsbD)

/-- IRREPEAT t0: four EDGE words (30_encoding.md R86). -/
def irRepeat (P : Params) (t0 : Micros) : List Instr :=
  [.edge P.pulseEndEdge.other t0, .edge P.pulseEndEdge (t0 + 9000#16),
    .edge P.pulseEndEdge.other (t0 + 11250#16), .edge P.pulseEndEdge (t0 + 11812#16)]

/-- OUTW_GRAY v (30_encoding.md R86). -/
def outwGray (v : Level) : List Instr := [.outWrite v v v]

/-- PWRCYCLE (30_encoding.md R86). -/
def pwrCycle : List Instr := [.pwrOff, .pwrOn]

end Sys2Proof
end

