-- ==== Sys2Proof/Safety.lean ====
section
/-! DEFINITION. The terms that statements use: sequences of operations, the contents of the queue, the role each raw
duration plays, and the invariant of the machine. -/

namespace Sys2Proof.Machine

/-- Perform instructions one after the other, stopping at the first that has no next state. -/
def runInstrs : List Instr → State → Host.Outcome State Fault Refusal
  | [], s => .next s
  | i :: is, s =>
    match exec i s with
    | .next t => runInstrs is t
    | .fault r => .fault r
    | .refused r => .refused r

/-- The held bytes, oldest first: the slots Q_RD, Q_RD + 1, ... mod 16 (10_state.md R33). -/
def CmdQueue.items (q : CmdQueue) : List Byte :=
  (List.range q.count).map fun j => q.read (q.rd + BitVec.ofNat 4 j)

/-- The duration in RAW[p] passes the test of position p for a full frame (30_encoding.md R87): position 1 held a
start pause, not a repeat pause. -/
def roleAccepts (P : Params) (p : Nat) (d : Micros) : Bool :=
  match phaseOf p with
  | .awaitingStart => isStartPulse P d
  | .awaitingLeadPause => isLeadPause P d && !isRepeatPause P d
  | .awaitingBitPulse _ => isBitPulse P d
  | .awaitingBitPause _ => isBitPause P d
  | .complete => false

/-- RAW[p] belongs to the current frame: a partial frame has filled the positions below POS, a completed one all 66
(10_state.md R25, 20_memory.md R66). -/
def IrDecoder.filled (x : IrDecoder) (p : Nat) : Bool :=
  decide (p < 66) && (x.frameReady || decide (p < x.pos.toNat))

/-- The decoder's invariants (40_ir_decoder.md R130, 10_state.md R25). -/
structure DecoderInv (P : Params) (x : IrDecoder) : Prop where
  pos_le : x.pos.toNat ≤ 66
  ready_of_complete : x.pos = 66#7 → x.frameReady = true
  pos_of_ready : x.frameReady = true → x.pos = 0#7 ∨ x.pos = 66#7
  repeat_le : x.repeatCnt.toNat ≤ 4
  repeat_of_no_last : x.lastValid = false → x.repeatCnt = 4#3
  role_of_filled : ∀ p d, x.filled p = true → x.raw[p]? = some d → roleAccepts P p d = true
  bit_of_filled : ∀ k d, x.filled (3 + 2 * k) = true → x.raw[3 + 2 * k]? = some d →
    x.acc.getLsbD k = pauseBit P d

/-- The output stage's invariants: a halted generator has dark channels (10_state.md R35), a lit channel has a
committed duty of at least the threshold (42_output_stage.md R167), TICKS is within its bound (10_state.md R23). -/
structure OutputInv (P : Params) (o : OutputStage) : Prop where
  dark_of_halted : o.genRun = false → o.chEn = Rgb.all false
  duty_of_lit : ∀ c, o.chEn.get c = true → 2 ≤ (o.comm.get c).toNat
  ticks_le : o.ticks ≤ P.tickSatMax

/-- The consumer's ranges (45_command_bytes.md R190, R199). -/
structure NodeInv (n : Node) : Prop where
  brightness_ge : 1 ≤ n.brightness
  brightness_le : n.brightness ≤ 63
  speed_le : n.speed ≤ 63
  color_le : n.selectedColor ≤ 15
  time_le : n.anim.t ≤ 4092

/-- What the port traces can hold: every IR_OUT record carries the accepted address (40_ir_decoder.md R123), every
count is within TICK_SAT_MAX (42_output_stage.md R172), and no recorded line is lit below the threshold
(42_output_stage.md R167). -/
structure PortsInv (P : Params) (r : Ports) : Prop where
  accepted : ∀ x ∈ r.irOut, x.addr = P.acceptedAddress
  counts_le : ∀ n, PortResult.count n ∈ r.results → n ≤ P.tickSatMax
  lit_lines : ∀ l ∈ r.lineHistory, ∀ c, (l.get c).enabled = true → 2 ≤ (l.get c).duty.toNat

/-- The machine's invariant. -/
structure Inv (s : State) : Prop where
  params : s.params.WellFormed
  dec : DecoderInv s.params s.dec
  out : OutputInv s.params s.out
  node : NodeInv s.node
  ports : PortsInv s.params s.ports

/-- The sum of the counts on a result trace (42_output_stage.md R173). -/
def countSum : List PortResult → Nat
  | [] => 0
  | .byte _ :: rs => countSum rs
  | .count n :: rs => n + countSum rs

/-- The bytes on a result trace, in order. -/
def resultBytes : List PortResult → List Byte
  | [] => []
  | .byte b :: rs => b :: resultBytes rs
  | .count _ :: rs => resultBytes rs

/-- The step taken from `s` performs the instruction `i`. -/
def Performs (s : State) (i : Instr) : Prop :=
  s.refusedMark = false ∧ ∃ x rest, s.pending = x :: rest ∧ fetch x s = .run i

/-- Apply a function to the next state of an outcome. -/
def mapNext (f : State → State) : Host.Outcome State Fault Refusal → Host.Outcome State Fault Refusal
  | .next s => .next (f s)
  | .fault r => .fault r
  | .refused r => .refused r

/-- The edge events that carry the given durations one after the other, pulse and pause in turn, after a capture at
time `t` (30_encoding.md R87). -/
def edgeTrain (P : Params) : Bool → Micros → List Micros → List Instr
  | _, _, [] => []
  | pulse, t, d :: ds =>
    .edge (if pulse then P.pulseEndEdge else P.pulseEndEdge.other) (t + d) :: edgeTrain P (!pulse) (t + d) ds

/-- An ENQ of a byte, or a DEQ. -/
def queueInstr : Option Byte → Instr
  | some b => .enq b
  | none => .deq

/-- The queue as a list of at most fifteen bytes: the results of the DEQs and the bytes left (41_command_queue.md
R148). -/
def fifoModel : List (Option Byte) → List Byte → List Byte × List Byte
  | [], q => ([], q)
  | some b :: ops, q => fifoModel ops (if q.length < Config.qUsable then q ++ [b] else q)
  | none :: ops, [] => (Config.sentinel :: (fifoModel ops []).1, (fifoModel ops []).2)
  | none :: ops, b :: q => (b :: (fifoModel ops q).1, (fifoModel ops q).2)

/-- How many ROLLOVERs of a run met TICKS = TICK_SAT_MAX (42_output_stage.md R173). -/
def lostTicks : List Instr → State → Nat
  | [], _ => 0
  | i :: is, s =>
    (if i = .rollover ∧ s.out.ticks = s.params.tickSatMax then 1 else 0) +
      match exec i s with
      | .next t => lostTicks is t
      | .fault _ => 0
      | .refused _ => 0

end Sys2Proof.Machine
end

