-- ==== Sys2Proof/Certificates/Slice0/Obligations.lean ====
section
/-! DEFINITION. The statements for the provers. Each docstring names the rule of spec/ it formalises; a statement
that rests on a choice of the model says so and names the log entry. -/

open Sys2Proof Sys2Proof.Machine

/-! ## Encoding -/

/-- Decoding an encoded instruction gives it back, with every operand at every value (30_encoding.md R72 to R82, R90,
R93). -/
def Obligations.DecodeOfEncodeIsTheInstruction : Prop :=
  ∀ i : Instr, decode (encode i) = .ok i

/-- A word has one meaning: encoding what was decoded gives the word back, on each channel (30_encoding.md R70 to
R94). -/
def Obligations.EncodeOfDecodeIsTheWord : Prop :=
  ∀ (w : PortWord) (i : Instr), decode w = .ok i → encode i = w

/-- The reserved operation words are exactly those of 30_encoding.md R84. -/
def Obligations.ReservedWordsAreExactlyThoseListed : Prop :=
  ∀ w : OpWord, decodeOp w = .error .reservedEncoding ↔
    (w >>> 28 = 0x0#32 ∨ w >>> 28 = 0xA#32 ∨ w >>> 28 = 0xB#32) ∨
    (w >>> 28 = 0x1#32 ∧ w &&& 0x0FFE0000#32 ≠ 0#32) ∨
    (w >>> 28 = 0x2#32 ∧ w &&& 0x0FFF0000#32 ≠ 0#32) ∨
    (w >>> 28 = 0x4#32 ∧ w &&& 0x0FFFFF00#32 ≠ 0#32) ∨
    ((w >>> 28 = 0x3#32 ∨ w >>> 28 = 0x5#32 ∨ w >>> 28 = 0x6#32 ∨ w >>> 28 = 0x7#32 ∨ w >>> 28 = 0x8#32 ∨
      w >>> 28 = 0x9#32) ∧ w &&& 0x0FFFFFFF#32 ≠ 0#32)

/-- No word fits two rows of spec/opcode_table.json. -/
def Obligations.NoWordFitsTwoTableRows : Prop :=
  ∀ (w : PortWord) (i j : Instr), i.row.fits w = true → j.row.fits w = true → i.row = j.row

/-- Decoding follows spec/opcode_table.json: it gives an instruction of the row the word fits, and it gives one
whenever the word fits a row. -/
def Obligations.DecodeFollowsTheTableRows : Prop :=
  (∀ (w : PortWord) (i : Instr), decode w = .ok i → i.row.fits w = true) ∧
  (∀ (w : PortWord) (j : Instr), j.row.fits w = true → ∃ i, decode w = .ok i ∧ i.row = j.row)

/-- The class of a decoded command byte is `cmd_class` of the byte (30_encoding.md R92); the decoder itself follows
the table's rows (log 17). -/
def Obligations.CommandBytesHaveTheirClass : Prop :=
  ∀ b : Byte, (decodeCommand b).cmdClass? = some (cmdClass b)

/-- Words written out from the patterns of 30_encoding.md R73 to R82 and R90, and what they stand for. -/
def Obligations.SampleWordsDecode : Prop :=
  decodeOp 0b00010000000000010100101000111000#32 = .ok (.edge .rise 19000#16) ∧
  decodeOp 0b00010000000000001111111111111111#32 = .ok (.edge .fall 65535#16) ∧
  decodeOp 0b00100000000000000111010100110000#32 = .ok (.bgTick 30000#16) ∧
  decodeOp 0b01000000000000000000000000100101#32 = .ok (.enq 0x25#8) ∧
  decodeOp 0b11111111111110000000000000000001#32 = .ok (.outWrite 1023#10 512#10 1#10) ∧
  decodeOp 0b00010000000000100000000000000000#32 = .error .reservedEncoding ∧
  decodeCommand 0b00010011#8 = .selAnim 3#4 ∧
  decodeCommand 0b10011111#8 = .setBri 31#6 ∧
  decodeBroadcast 0b00000010#8 = .ok .bcastAnimOn

/-! ## The step -/

/-- A step at a presented word runs the instruction it decodes to, in the state with the request taken from the list;
a next state gets the lines recorded (log 1, log 12), a stop is the step's stop. -/
def Obligations.StepRunsTheDecodedInstruction : Prop :=
  ∀ (s : State) (w : PortWord) (rest : List Input) (i : Instr),
    s.refusedMark = false → s.pending = .present w :: rest → decode w = .ok i →
    step s = (match exec i { s with pending := rest } with
      | .next t => .next { t with ports := { t.ports with lineHistory := t.ports.lineHistory ++ [t.out.lines] } }
      | .fault r => .fault r
      | .refused r => .refused r)

/-- The two requests of the surrounding software: record `k` goes through KEYMAP and, where that gives a byte, is an
ENQ of it (40_ir_decoder.md R127); a byte that a DEQ delivered is applied as a command (45_command_bytes.md). That
they are requests of their own, and that the mapping and its ENQ are one step which reads the master_animated of its own
state, is the model's choice (log 14, log 22). -/
def Obligations.BoundaryRequestsIssueTheirInstruction : Prop :=
  (∀ (s : State) (k : Nat) (rest : List Input) (r : IrOut),
    s.refusedMark = false → s.pending = .routeRecord k :: rest → s.ports.irOut[k]? = some r →
    (∀ b, s.params.keymapByte r.addr r.cmd s.node.masterAnimated = some b →
      step s = afterExec (exec (.enq b) { s with pending := rest })) ∧
    (s.params.keymapByte r.addr r.cmd s.node.masterAnimated = none → step s = .next { s with pending := rest })) ∧
  (∀ (s : State) (k : Nat) (rest : List Input) (b : Byte),
    s.refusedMark = false → s.pending = .dispatchResult k :: rest → s.ports.results[k]? = some (.byte b) →
    step s = afterExec (exec (decodeCommand b) { s with pending := rest }))

/-- A reserved word sets the refused mark and changes nothing else; with the mark set no further step is taken, so it
stays set (60_exceptions.md R227). That the mark is set by a step of its own is the model's reading (log 6). -/
def Obligations.ReservedWordSetsTheRefusedMark : Prop :=
  (∀ (s : State) (w : OpWord) (rest : List Input),
    s.refusedMark = false → s.pending = .present (.op w) :: rest → decodeOp w = .error .reservedEncoding →
    step s = .next { s with refusedMark := true }) ∧
  (∀ s : State, s.refusedMark = true → step s = .refused .reservedEncoding)

/-- Nothing but a reserved operation word sets the refused mark (60_exceptions.md R227). -/
def Obligations.OnlyReservedWordsSetTheRefusedMark : Prop :=
  ∀ s t : State, step s = .next t → t.refusedMark = true →
    ∃ (w : OpWord) (rest : List Input), s.pending = .present (.op w) :: rest ∧
      decodeOp w = .error .reservedEncoding

/-- With no request pending nothing happens: the model's choice (log 2). -/
def Obligations.NoRequestNoChange : Prop :=
  ∀ s : State, s.refusedMark = false → s.pending = [] → step s = .next s

/-- A bus write of a byte other than 0x01 and 0x02 leaves master_animated, and everything else but the request
itself, unchanged (45_command_bytes.md R205). -/
def Obligations.OtherBusWritesChangeNothing : Prop :=
  ∀ (s : State) (b : Byte) (rest : List Input),
    s.refusedMark = false → s.pending = .present (.broadcast b) :: rest → b ≠ 0x01#8 → b ≠ 0x02#8 →
    step s = .next { s with pending := rest }

/-- DEFRAME has a step only when FRAME_READY = 1 and ROLLOVER only when GEN_RUN = 1; every other operation has a step
in every state (60_exceptions.md R226). Where there is none the model is stuck, by name (log 5). -/
def Obligations.InstructionsHaveAStepExactlyWhenGuarded : Prop :=
  (∀ (i : Instr) (s : State), (∃ t, exec i s = .next t) ↔
    ((i = .deframe → s.dec.frameReady = true) ∧ (i = .rollover → s.out.genRun = true))) ∧
  (∀ s : State, s.dec.frameReady = false → exec .deframe s = .fault .noStepFrameNotReady) ∧
  (∀ s : State, s.out.genRun = false → exec .rollover s = .fault .noStepGeneratorHalted)

/-! ## IR decoder -/

/-- The window tests are the exact rational ones: in_win, in_span and below_mid (00_scope.md R13), with the unit `t` in
half-microseconds. -/
def Obligations.WindowsAreTheRationalOnes : Prop :=
  ∀ t d m lo hi : Nat,
    (inWin t d m = true ↔ ((m * t : ℚ) / 2) / 2 ≤ d ∧ (d : ℚ) ≤ 3 * ((m * t : ℚ) / 2) / 2) ∧
    (inSpan t d lo hi = true ↔ ((lo * t : ℚ) / 2) / 2 ≤ d ∧ (d : ℚ) ≤ 3 * ((hi * t : ℚ) / 2) / 2) ∧
    (belowMid t d lo hi = true ↔ (d : ℚ) < ((lo * t : ℚ) / 2 + (hi * t : ℚ) / 2) / 2)

/-- The integer windows of 40_ir_decoder.md R100 at T_UNIT_X2 = 1125. -/
def Obligations.WindowsAtTheDefaultUnit : Prop :=
  ∀ (P : Params) (d : Micros), P.tUnitX2 = 1125 →
    (isStartPulse P d = true ↔ 4500 ≤ d.toNat ∧ d.toNat ≤ 13500) ∧
    (isLeadPause P d = true ↔ 1125 ≤ d.toNat ∧ d.toNat ≤ 6750) ∧
    (isRepeatPause P d = true ↔ d.toNat ≤ 3374) ∧
    (isBitPulse P d = true ↔ 282 ≤ d.toNat ∧ d.toNat ≤ 843) ∧
    (isBitPause P d = true ↔ 282 ≤ d.toNat ∧ d.toNat ≤ 2531) ∧
    (pauseBit P d = false ↔ d.toNat ≤ 1124)

/-- While FRAME_READY = 1 an EDGE changes only BASELINE (40_ir_decoder.md R111). -/
def Obligations.EdgeIsDroppedWhileAFrameWaits : Prop :=
  ∀ (p : Polarity) (ts : Micros) (s : State), s.dec.frameReady = true →
    exec (.edge p ts) s = .next { s with dec := { s.dec with baseline := ts } }

/-- EDGE at position 0 (40_ir_decoder.md R104): a pulse in the start window is accepted, anything else changes nothing
but BASELINE. -/
def Obligations.EdgeAtTheStartPosition : Prop :=
  ∀ (p : Polarity) (ts : Micros) (s : State), s.dec.frameReady = false → s.dec.pos = 0#7 →
    exec (.edge p ts) s = .next
      (if p = s.params.pulseEndEdge ∧ 16 * s.params.tUnitX2 ≤ 4 * (ts - s.dec.baseline).toNat ∧
          4 * (ts - s.dec.baseline).toNat ≤ 3 * 16 * s.params.tUnitX2 then
        { s with dec := { s.dec with
            baseline := ts, raw := s.dec.raw.set 0 (ts - s.dec.baseline), pos := 1#7 } }
      else { s with dec := { s.dec with baseline := ts } })

/-- EDGE at position 1 (40_ir_decoder.md R105, R106, R113): abort, start pause, honoured repeat with its record, or
repeat that is not honoured. -/
def Obligations.EdgeAtTheLeadPausePosition : Prop :=
  ∀ (p : Polarity) (ts : Micros) (s : State), s.dec.frameReady = false → s.dec.pos = 1#7 →
    exec (.edge p ts) s = .next
      (if p ≠ s.params.pulseEndEdge ∧ 4 * s.params.tUnitX2 ≤ 4 * (ts - s.dec.baseline).toNat ∧
          4 * (ts - s.dec.baseline).toNat ≤ 3 * 8 * s.params.tUnitX2 then
        if 4 * (ts - s.dec.baseline).toNat < (4 + 8) * s.params.tUnitX2 then
          if s.dec.repeatCnt.toNat < 4 then
            { s with
              dec := { s.dec with
                baseline := ts, raw := s.dec.raw.set 1 (ts - s.dec.baseline), pos := 0#7, repeatCnt := 0#3 }
              ports := { s.ports with
                irOut := s.ports.irOut ++
                  (if s.dec.lastValid = true ∧ s.dec.lastAddr = s.params.acceptedAddress then
                    [⟨.repeated, s.dec.lastAddr, s.dec.lastCmd⟩] else []) } }
          else
            { s with dec := { s.dec with
                baseline := ts, raw := s.dec.raw.set 1 (ts - s.dec.baseline), pos := 0#7 } }
        else
          { s with dec := { s.dec with
              baseline := ts, raw := s.dec.raw.set 1 (ts - s.dec.baseline), pos := 2#7 } }
      else { s with dec := { s.dec with baseline := ts, pos := 0#7 } })

/-- EDGE where the pulse of bit `k` is expected (40_ir_decoder.md R107, R109). -/
def Obligations.EdgeAtABitPulsePosition : Prop :=
  ∀ (p : Polarity) (ts : Micros) (s : State) (k : Nat), k < 32 → s.dec.frameReady = false →
    s.dec.pos = BitVec.ofNat 7 (2 + 2 * k) →
    exec (.edge p ts) s = .next
      (if p = s.params.pulseEndEdge ∧ 1 * s.params.tUnitX2 ≤ 4 * (ts - s.dec.baseline).toNat ∧
          4 * (ts - s.dec.baseline).toNat ≤ 3 * 1 * s.params.tUnitX2 then
        { s with dec := { s.dec with
            baseline := ts, raw := s.dec.raw.setIfInBounds (2 + 2 * k) (ts - s.dec.baseline),
            pos := BitVec.ofNat 7 (3 + 2 * k) } }
      else { s with dec := { s.dec with baseline := ts, pos := 0#7 } })

/-- EDGE where the pause of bit `k` is expected (40_ir_decoder.md R108, R110): an accepted pause writes ACC bit `k`
and no other, and the one of bit 31 completes the frame; any other event aborts (R109). -/
def Obligations.EdgeAtABitPausePosition : Prop :=
  ∀ (p : Polarity) (ts : Micros) (s : State) (k : Nat), k < 32 → s.dec.frameReady = false →
    s.dec.pos = BitVec.ofNat 7 (3 + 2 * k) →
    ∃ a : BitVec 32,
      (∀ j, a.getLsbD j =
        if j = k then decide ((1 + 3) * s.params.tUnitX2 ≤ 4 * (ts - s.dec.baseline).toNat) else s.dec.acc.getLsbD j) ∧
      exec (.edge p ts) s = .next
        (if p ≠ s.params.pulseEndEdge ∧ 1 * s.params.tUnitX2 ≤ 4 * (ts - s.dec.baseline).toNat ∧
            4 * (ts - s.dec.baseline).toNat ≤ 3 * 3 * s.params.tUnitX2 then
          { s with dec := { s.dec with
              baseline := ts, raw := s.dec.raw.setIfInBounds (3 + 2 * k) (ts - s.dec.baseline),
              acc := a, pos := BitVec.ofNat 7 (4 + 2 * k), frameReady := decide (k = 31) } }
        else { s with dec := { s.dec with baseline := ts, pos := 0#7 } })

/-- BG_TICK (40_ir_decoder.md R114). -/
def Obligations.BgTickAgesTheGateAndResetsThePosition : Prop :=
  ∀ (ts : Micros) (s : State),
    exec (.bgTick ts) s = .next { s with dec := { s.dec with
      repeatCnt := BitVec.ofNat 3 (min (s.dec.repeatCnt.toNat + 1) 4), pos := 0#7, baseline := ts } }

/-- DEFRAME of a completed frame (40_ir_decoder.md R120 to R123): with the bytes b0 to b3 of ACC, valid iff b2 is the
complement of b3; a valid frame is remembered and resets the repeat counter, and is emitted iff its address {b1, b0}
is the accepted one; an invalid one is dropped. -/
def Obligations.DeframeConsumesTheFrame : Prop :=
  ∀ (s : State) (b0 b1 b2 b3 : Byte), s.dec.frameReady = true →
    (∀ j < 8, b0.getLsbD j = s.dec.acc.getLsbD j ∧ b1.getLsbD j = s.dec.acc.getLsbD (8 + j) ∧
      b2.getLsbD j = s.dec.acc.getLsbD (16 + j) ∧ b3.getLsbD j = s.dec.acc.getLsbD (24 + j)) →
    exec .deframe s = .next
      (if b2 = ~~~b3 then
        { s with
          dec := { s.dec with
            lastAddr := b1 ++ b0, lastCmd := b2, lastValid := true, repeatCnt := 0#3, frameReady := false, pos := 0#7 }
          ports := { s.ports with
            irOut := s.ports.irOut ++
              (if b1 ++ b0 = s.params.acceptedAddress then [⟨.frame, b1 ++ b0, b2⟩] else []) } }
      else { s with dec := { s.dec with frameReady := false, pos := 0#7 } })

/-- A train of 66 accepted durations from position 0 completes a frame whose ACC holds, bit for bit, what its pauses
decode to, and changes nothing outside the decoder (40_ir_decoder.md R103 to R110, 10_state.md R28). -/
def Obligations.AcceptedDurationsCompleteAFrame : Prop :=
  ∀ (s : State) (ds : List Micros), s.dec.frameReady = false → s.dec.pos = 0#7 → ds.length = 66 →
    (∀ p d, ds[p]? = some d → roleAccepts s.params p d = true) →
    ∃ x : IrDecoder,
      runInstrs (edgeTrain s.params true s.dec.baseline ds) s = .next { s with dec := x } ∧
      x.pos = 66#7 ∧ x.frameReady = true ∧ x.repeatCnt = s.dec.repeatCnt ∧ x.lastValid = s.dec.lastValid ∧
      x.lastAddr = s.dec.lastAddr ∧ x.lastCmd = s.dec.lastCmd ∧ x.raw.toList = ds ∧
      (∀ k d, k < 32 → ds[3 + 2 * k]? = some d → x.acc.getLsbD k = pauseBit s.params d)

/-- The first duration that its position does not accept, from position 2 on, aborts the frame and emits nothing
(40_ir_decoder.md R107 to R109). -/
def Obligations.ARejectedDurationAbortsTheFrame : Prop :=
  ∀ (s : State) (ds : List Micros) (bad : Micros), s.dec.frameReady = false → s.dec.pos = 0#7 →
    2 ≤ ds.length → ds.length < 66 →
    (∀ p d, ds[p]? = some d → roleAccepts s.params p d = true) → roleAccepts s.params ds.length bad = false →
    ∃ x : IrDecoder,
      runInstrs (edgeTrain s.params true s.dec.baseline (ds ++ [bad])) s = .next { s with dec := x } ∧
      x.pos = 0#7 ∧ x.frameReady = false ∧ x.repeatCnt = s.dec.repeatCnt ∧ x.lastValid = s.dec.lastValid ∧
      x.lastAddr = s.dec.lastAddr ∧ x.lastCmd = s.dec.lastCmd ∧ x.raw.toList.take ds.length = ds

/-- After a valid frame or an honoured repeat (REPEAT_CNT = 0) and n background ticks, a repeat of an accepted last
frame is emitted iff n <= 3 (40_ir_decoder.md R129). -/
def Obligations.RepeatIsHonouredForThreeTicks : Prop :=
  ∀ (s : State) (ticks : List Micros) (dPulse dPause : Micros),
    s.dec.frameReady = false → s.dec.pos = 0#7 → s.dec.repeatCnt = 0#3 → s.dec.lastValid = true →
    s.dec.lastAddr = s.params.acceptedAddress →
    isStartPulse s.params dPulse = true → isLeadPause s.params dPause = true → isRepeatPause s.params dPause = true →
    ∃ t, runInstrs (ticks.map Instr.bgTick ++
        edgeTrain s.params true (ticks.getLastD s.dec.baseline) [dPulse, dPause]) s = .next t ∧
      t.ports.irOut = s.ports.irOut ++
        (if ticks.length ≤ 3 then [⟨.repeated, s.dec.lastAddr, s.dec.lastCmd⟩] else []) ∧
      t.dec.pos = 0#7 ∧ t.dec.repeatCnt = (if ticks.length ≤ 3 then 0#3 else 4#3)

/-- While FRAME_READY = 1 no instruction writes RAW or ACC (20_memory.md R66). -/
def Obligations.AWaitingFrameIsNotWritten : Prop :=
  ∀ (i : Instr) (s t : State), s.dec.frameReady = true → exec i s = .next t →
    t.dec.raw = s.dec.raw ∧ t.dec.acc = s.dec.acc

/-- Once there is a last frame there is one for ever (10_state.md R31). -/
def Obligations.LastFrameStaysValid : Prop :=
  ∀ s t : State, step s = .next t → s.dec.lastValid = true → t.dec.lastValid = true

/-- No instruction reads RAW: with other contents of RAW it does the same to everything else (10_state.md R29). -/
def Obligations.RawIsNeverRead : Prop :=
  ∀ (i : Instr) (s : State) (v : Vector Micros 66),
    (∀ t, exec i s = .next t → ∃ v', exec i { s with dec := { s.dec with raw := v } } =
      .next { t with dec := { t.dec with raw := v' } }) ∧
    (∀ r, exec i s = .fault r → exec i { s with dec := { s.dec with raw := v } } = .fault r)

/-- The IR decoder does not depend on the output stage, the queue or the consumer (60_exceptions.md R234): from two
states with the same parameters and decoder it goes to the same decoder and emits the same records. -/
def Obligations.DecoderIgnoresTheOtherUnits : Prop :=
  ∀ (i : Instr) (s s' t t' : State), s.params = s'.params → s.dec = s'.dec →
    exec i s = .next t → exec i s' = .next t' →
    t.dec = t'.dec ∧ ∃ new, t.ports.irOut = s.ports.irOut ++ new ∧ t'.ports.irOut = s'.ports.irOut ++ new

/-! ## Command queue -/

/-- ENQ (41_command_queue.md R141): dropped when full, else stored at Q_WR. -/
def Obligations.EnqStoresOrDrops : Prop :=
  ∀ (b : Byte) (s : State),
    exec (.enq b) s = .next
      (if s.queue.wr + 1#4 = s.queue.rd then s
      else { s with queue := { s.queue with
        slot := s.queue.slot.set s.queue.wr.toNat b s.queue.wr.isLt, wr := s.queue.wr + 1#4 } })

/-- DEQ (41_command_queue.md R145): the sentinel and no change when empty, else the byte at Q_RD. -/
def Obligations.DeqReturnsOrGivesTheSentinel : Prop :=
  ∀ s : State,
    exec .deq s = .next
      (if s.queue.wr = s.queue.rd then
        { s with ports := { s.ports with results := s.ports.results ++ [.byte 0x00#8] } }
      else
        { s with
          queue := { s.queue with rd := s.queue.rd + 1#4 }
          ports := { s.ports with
            results := s.ports.results ++ [.byte (s.queue.slot[s.queue.rd.toNat]'s.queue.rd.isLt)] } })

/-- One operation on the held bytes: at most 15 are held, an ENQ within capacity appends its byte, an ENQ at capacity
changes nothing, a DEQ gives and removes the oldest (41_command_queue.md R140 to R146). -/
def Obligations.QueueOperationsActOnTheHeldBytes : Prop :=
  ∀ (q : CmdQueue) (b : Byte),
    q.items.length ≤ 15 ∧
    (q.enqueue b).items = (if q.items.length < 15 then q.items ++ [b] else q.items) ∧
    q.front = q.items.headD 0x00#8 ∧
    q.dequeue.items = q.items.tail

/-- Any sequence of ENQ and DEQ, from any state, delivers what a first-in first-out list of at most 15 bytes delivers,
leaves the bytes it leaves, and changes nothing else (41_command_queue.md R148). -/
def Obligations.QueueRefinesABoundedFifo : Prop :=
  ∀ (ops : List (Option Byte)) (s : State),
    ∃ q : CmdQueue,
      q.items = (fifoModel ops s.queue.items).2 ∧
      runInstrs (ops.map queueInstr) s = .next
        { s with
          queue := q
          ports := { s.ports with
            results := s.ports.results ++ (fifoModel ops s.queue.items).1.map PortResult.byte } }

/-- Any number of ENQs from the empty queue, with no DEQ, leaves the first fifteen bytes held (41_command_queue.md
R149). -/
def Obligations.OverflowKeepsTheFirstFifteen : Prop :=
  ∀ (bs : List Byte) (s t : State), s.queue.wr = s.queue.rd → runInstrs (bs.map Instr.enq) s = .next t →
    t.queue.items = bs.take 15

/-! ## Output stage -/

/-- OUT_WRITE (42_output_stage.md R161): each channel's pending duty is the table's entry at that channel's input. -/
def Obligations.OutWriteSetsThePendingTriple : Prop :=
  ∀ (vr vg vb : Level) (s : State),
    exec (.outWrite vr vg vb) s = .next { s with out := { s.out with
      pend := ⟨s.params.gammaLut[vr.toNat]'vr.isLt, s.params.gammaLut[vg.toNat]'vg.isLt,
        s.params.gammaLut[vb.toNat]'vb.isLt⟩ } }

/-- The gamma table the machine starts with is monotonic, and no step changes it, so a larger linear value never gets a
smaller pending duty (42_output_stage.md R162, 00_scope.md R8). -/
def Obligations.OutputMappingIsMonotonic : Prop :=
  State.reset.params.GammaMonotone ∧
  (∀ s t : State, step s = .next t → t.params = s.params)

/-- ROLLOVER while the generator runs (42_output_stage.md R165 to R168). -/
def Obligations.RolloverCommitsThePendingTriple : Prop :=
  ∀ s : State, s.out.genRun = true →
    exec .rollover s = .next { s with out := { s.out with
      comm := s.out.pend
      chEn := ⟨decide (¬ s.out.pend.r.toNat < 2), decide (¬ s.out.pend.g.toNat < 2),
        decide (¬ s.out.pend.b.toNat < 2)⟩
      ticks := min (s.out.ticks + 1) s.params.tickSatMax } }

/-- DRAIN returns TICKS and clears it (42_output_stage.md R172). -/
def Obligations.DrainReturnsAndClearsTheTicks : Prop :=
  ∀ s : State,
    exec .drain s = .next { s with
      out := { s.out with ticks := 0 }
      ports := { s.ports with results := s.ports.results ++ [.count s.out.ticks] } }

/-- PWR_OFF and PWR_ON (42_output_stage.md R175, R176, R178, R179). -/
def Obligations.PowerOperationsHaltAndResume : Prop :=
  ∀ s : State,
    exec .pwrOff s = .next { s with out := { s.out with genRun := false, chEn := ⟨false, false, false⟩ } } ∧
    exec .pwrOn s = .next { s with out := { s.out with genRun := true } }

/-- The line function (10_state.md R36): inactive for the whole period if CH_EN[c] = 0 or GEN_RUN = 0, else active for
COMM[c] counts, and inactive for the rest. -/
def Obligations.LinesAreActiveForTheCommittedCounts : Prop :=
  ∀ (P : Params) (o : OutputStage) (c : Channel),
    ((o.chEn.get c = false ∨ o.genRun = false) →
      (o.line c).activeCounts = 0 ∧ (o.line c).inactiveCounts P = P.pwmPeriod.counts) ∧
    (o.chEn.get c = true → o.genRun = true →
      (o.line c).activeCounts = (o.comm.get c).toNat ∧
      (o.line c).activeCounts + (o.line c).inactiveCounts P = P.pwmPeriod.counts)

/-- COMM changes only in a ROLLOVER step, and CH_EN only in a ROLLOVER, a PWR_OFF, or the command that issues a PWR_OFF
(42_output_stage.md R169). -/
def Obligations.CommittedDutiesChangeOnlyAtRollover : Prop :=
  ∀ s t : State, step s = .next t →
    (t.out.comm ≠ s.out.comm → Performs s .rollover) ∧
    (t.out.chEn ≠ s.out.chEn → Performs s .rollover ∨ Performs s .pwrOff ∨ Performs s .cmdPwrOff)

/-- A channel given a value below the threshold keeps its line until the next ROLLOVER and is disabled from that one on
(42_output_stage.md R181). PWR_OFF is the exception the rule names; the two OUT_WRITEs after the first are left out so
that the value is still the pending one. -/
def Obligations.DisabledAtTheBoundaryNeverBefore : Prop :=
  ∀ (s t : State) (vr vg vb : Level) (is : List Instr), OutputInv s.params s.out →
    (∀ i ∈ is, i ≠ .rollover ∧ i ≠ .pwrOff ∧ i ≠ .cmdPwrOff ∧ (∀ r g b, i ≠ .outWrite r g b) ∧
      (∀ n, i ≠ .selColor n)) →
    runInstrs (.outWrite vr vg vb :: is) s = .next t →
    t.out.lines = s.out.lines ∧
    ∀ u c, exec .rollover t = .next u → (s.params.gamma ((⟨vr, vg, vb⟩ : Rgb Level).get c)).toNat < 2 →
      (u.out.line c).enabled = false

/-- From a PWR_OFF on, whatever happens short of a ROLLOVER, every line stays inactive and the committed duties stay as
they were (42_output_stage.md R176, R179, 60_exceptions.md R234). -/
def Obligations.LinesStayDarkFromPowerOffToRollover : Prop :=
  ∀ (s t : State) (is : List Instr), .rollover ∉ is → runInstrs (.pwrOff :: is) s = .next t →
    t.out.comm = s.out.comm ∧ ∀ c, (t.out.line c).enabled = false

/-- In any run the sum of the DRAIN results and the ticks left equals the number of ROLLOVERs and what was there before,
less one for each ROLLOVER that met the saturation value (42_output_stage.md R173). -/
def Obligations.NoTickIsLostBelowSaturation : Prop :=
  ∀ (is : List Instr) (s t : State), s.out.ticks ≤ s.params.tickSatMax → runInstrs is s = .next t →
    countSum t.ports.results + t.out.ticks + lostTicks is s =
      countSum s.ports.results + s.out.ticks + is.count .rollover

/-! ## Consumer -/

/-- The power commands (45_command_bytes.md R192, R193); that the issued operation acts in the command's own step is the
model's choice (log 13). -/
def Obligations.PowerCommandsIssueThePowerOperations : Prop :=
  ∀ s : State,
    exec .cmdPwrOff s = .next { s with
      node := { s.node with isOn := false }
      out := { s.out with genRun := false, chEn := ⟨false, false, false⟩ } } ∧
    exec .cmdPwrOn s = .next { s with
      node := { s.node with isOn := true }
      out := { s.out with genRun := true } }

/-- BRIDEC, BRIINC and SETBRI (45_command_bytes.md R194, R195, R200). That they leave the pending duties alone is the
model's choice (log 20). -/
def Obligations.BrightnessCommandsSetTheBrightness : Prop :=
  ∀ (v : BitVec 6) (s : State),
    exec .briDec s = .next { s with node := { s.node with brightness := max (s.node.brightness - 1) 1 } } ∧
    exec .briInc s = .next { s with node := { s.node with brightness := min (s.node.brightness + 1) 63 } } ∧
    exec (.setBri v) s = .next
      (if 1 ≤ v.toNat then { s with node := { s.node with brightness := v.toNat } } else s)

/-- SPDDEC, SPDINC and SETSPD (45_command_bytes.md R196, R197, R201). -/
def Obligations.SpeedCommandsSetTheSpeed : Prop :=
  ∀ (v : BitVec 6) (s : State),
    exec .spdDec s = .next { s with node := { s.node with speed := max (s.node.speed - 1) 0 } } ∧
    exec .spdInc s = .next { s with node := { s.node with speed := min (s.node.speed + 1) 63 } } ∧
    exec (.setSpd v) s = .next { s with node := { s.node with speed := v.toNat } }

/-- SELANIM (45_command_bytes.md R198). -/
def Obligations.SelAnimSelectsAnAnimation : Prop :=
  ∀ (n : BitVec 4) (s : State),
    (∀ h : n.toNat < 4, exec (.selAnim n) s = .next { s with node := { s.node with
      activeAnim := ⟨if n = 0#4 then .flash else if n = 1#4 then .strobe else if n = 2#4 then .fade else .smooth,
        s.params.animSmooth[n.toNat]⟩
      anim := ⟨0, 0, 1⟩
      mode := .animated } }) ∧
    (3 < n.toNat → exec (.selAnim n) s = .next s)

/-- SELCOLOR (45_command_bytes.md R199): the palette color, scaled by brightness / 63 and mapped through the gamma table,
becomes pending. That the issued OUT_WRITE acts in the command's own step is the model's choice (log 13). -/
def Obligations.SelColorWritesTheScaledColor : Prop :=
  ∀ (n : BitVec 5) (s : State),
    (∀ h : n.toNat < 16, s.node.brightness ≤ 63 →
      ∃ v : Rgb Level,
        (∀ c, (v.get c).toNat = (s.params.palette[n.toNat].get c).toNat * s.node.brightness / 63) ∧
        exec (.selColor n) s = .next { s with
          node := { s.node with selectedColor := n.toNat, mode := .static }
          out := { s.out with pend := v.map s.params.gamma } }) ∧
    (15 < n.toNat → exec (.selColor n) s = .next s)

/-- NOCMD and the unknown command bytes do nothing (45_command_bytes.md R191, R202). -/
def Obligations.IdleAndUnknownCommandsDoNothing : Prop :=
  ∀ (s : State) (x : BitVec 3) (y : BitVec 6),
    exec .nocmd s = .next s ∧ exec .unknown01 s = .next s ∧ exec (.unknown08 x) s = .next s ∧
    exec (.unknown40 y) s = .next s

/-- A command byte that `cmd_class` calls NOCMD or UNKNOWN does nothing, undefined field values among them
(30_encoding.md R91, 45_command_bytes.md R202). -/
def Obligations.BytesOfNoClassDoNothing : Prop :=
  ∀ (b : Byte) (s : State), cmdClass b = .unknown ∨ cmdClass b = .nocmd → exec (decodeCommand b) s = .next s

/-- The broadcast bytes set and clear master_animated (45_command_bytes.md R203, R204). -/
def Obligations.BroadcastsSetMasterAnimated : Prop :=
  ∀ s : State,
    exec .bcastAnimOff s = .next { s with node := { s.node with masterAnimated := false } } ∧
    exec .bcastAnimOn s = .next { s with node := { s.node with masterAnimated := true } }

/-- Every command applies whatever is_on is (45_command_bytes.md R206): but for the power commands, which set it, the
effect of an instruction neither depends on is_on nor changes it. -/
def Obligations.IsOnGatesNothing : Prop :=
  ∀ (i : Instr) (s : State) (on : Bool), i ≠ .cmdPwrOff → i ≠ .cmdPwrOn →
    exec i { s with node := { s.node with isOn := on } } =
      mapNext (fun t => { t with node := { t.node with isOn := on } }) (exec i s)

/-! ## The whole machine -/

/-- Only the operations that 10_state.md R24 names write an element (the commands that issue an operation counted with
it, and the power commands with PWR_OFF and PWR_ON); the parameters, GAMMA_LUT among them, are written by none. -/
def Obligations.OnlyTheNamedOperationsWrite : Prop :=
  ∀ (i : Instr) (s t : State), exec i s = .next t →
    t.params = s.params ∧ t.pending = s.pending ∧ t.refusedMark = s.refusedMark ∧
    (t.dec.pos ≠ s.dec.pos → (∃ p ts, i = .edge p ts) ∨ (∃ ts, i = .bgTick ts) ∨ i = .deframe) ∧
    (t.dec.frameReady ≠ s.dec.frameReady → (∃ p ts, i = .edge p ts) ∨ i = .deframe) ∧
    (t.dec.baseline ≠ s.dec.baseline → (∃ p ts, i = .edge p ts) ∨ ∃ ts, i = .bgTick ts) ∧
    (t.dec.acc ≠ s.dec.acc ∨ t.dec.raw ≠ s.dec.raw → ∃ p ts, i = .edge p ts) ∧
    (t.dec.repeatCnt ≠ s.dec.repeatCnt → (∃ p ts, i = .edge p ts) ∨ (∃ ts, i = .bgTick ts) ∨ i = .deframe) ∧
    (t.dec.lastValid ≠ s.dec.lastValid ∨ t.dec.lastAddr ≠ s.dec.lastAddr ∨ t.dec.lastCmd ≠ s.dec.lastCmd →
      i = .deframe) ∧
    (t.queue.wr ≠ s.queue.wr ∨ t.queue.slot ≠ s.queue.slot → ∃ b, i = .enq b) ∧
    (t.queue.rd ≠ s.queue.rd → i = .deq) ∧
    (t.out.pend ≠ s.out.pend → (∃ r g b, i = .outWrite r g b) ∨ ∃ n, i = .selColor n) ∧
    (t.out.comm ≠ s.out.comm → i = .rollover) ∧
    (t.out.chEn ≠ s.out.chEn → i = .rollover ∨ i = .pwrOff ∨ i = .cmdPwrOff) ∧
    (t.out.genRun ≠ s.out.genRun → i = .pwrOff ∨ i = .pwrOn ∨ i = .cmdPwrOff ∨ i = .cmdPwrOn) ∧
    (t.out.ticks ≠ s.out.ticks → i = .rollover ∨ i = .drain) ∧
    (t.node ≠ s.node → i.agent = .dispatcher ∨ i.agent = .busResponder) ∧
    (t.ports.irOut ≠ s.ports.irOut → (∃ p ts, i = .edge p ts) ∨ i = .deframe) ∧
    (t.ports.results ≠ s.ports.results → i = .deq ∨ i = .drain)

/-- The traces are only ever appended to, and a performed instruction appends the lines it leaves to their history
(10_state.md R40; when a value joins the history is the model's reading, log 12). -/
def Obligations.TracesOnlyGrow : Prop :=
  ∀ s t : State, step s = .next t →
    s.ports.irOut <+: t.ports.irOut ∧ s.ports.results <+: t.ports.results ∧
    s.ports.lineHistory <+: t.ports.lineHistory ∧
    (∀ i, Performs s i → t.ports.lineHistory = s.ports.lineHistory ++ [t.out.lines])

/-- The state after reset (70_reset_and_hazards.md R250, 45_command_bytes.md R190). What the spec gives no value for is
not stated here: RAW and Q_SLOT (log 8, log 9), active_animation, AnimationState and master_animated (log 10). -/
def Obligations.ResetLeavesTheListedValues : Prop :=
  let s := State.reset
  s.dec.pos = 0#7 ∧ s.dec.frameReady = false ∧ s.dec.baseline = 0#16 ∧ s.dec.acc = 0#32 ∧ s.dec.repeatCnt = 4#3 ∧
  s.dec.lastValid = false ∧ s.dec.lastAddr = 0x0000#16 ∧ s.dec.lastCmd = 0x00#8 ∧
  s.queue.wr = 0#4 ∧ s.queue.rd = 0#4 ∧
  s.out.pend = ⟨0#10, 0#10, 0#10⟩ ∧ s.out.comm = ⟨0#10, 0#10, 0#10⟩ ∧ s.out.chEn = ⟨false, false, false⟩ ∧
  s.out.genRun = true ∧ s.out.ticks = 0 ∧
  s.ports.irOut = [] ∧ s.ports.results = [] ∧ s.ports.lineHistory = [] ∧ s.refusedMark = false ∧
  s.node.isOn = true ∧ s.node.mode = .static ∧ s.node.brightness = 63 ∧ s.node.speed = 7 ∧ s.node.selectedColor = 0

/-- The invariant holds after reset. -/
def Obligations.ResetMeetsTheInvariant : Prop :=
  Inv State.reset

/-- Every step keeps the invariant: the decoder's of 40_ir_decoder.md R130, the output stage's of 10_state.md R35, the
ranges of 10_state.md R23 and 45_command_bytes.md R190, the accepted address on every record (40_ir_decoder.md R123). -/
def Obligations.StepKeepsTheInvariant : Prop :=
  ∀ s t : State, Inv s → step s = .next t → Inv t
end

