-- ==== Sys2Proof/Laws/State.lean ====
section
/-! SUPPORT. One lemma per field per update of the state, and per field per update of a unit, all true by rfl. -/

namespace Sys2Proof.Machine

variable (s : State)

/-! ## withDec -/

@[simp] theorem State.withDec_params (f : IrDecoder → IrDecoder) : (s.withDec f).params = s.params := rfl
@[simp] theorem State.withDec_dec (f : IrDecoder → IrDecoder) : (s.withDec f).dec = f s.dec := rfl
@[simp] theorem State.withDec_queue (f : IrDecoder → IrDecoder) : (s.withDec f).queue = s.queue := rfl
@[simp] theorem State.withDec_out (f : IrDecoder → IrDecoder) : (s.withDec f).out = s.out := rfl
@[simp] theorem State.withDec_node (f : IrDecoder → IrDecoder) : (s.withDec f).node = s.node := rfl
@[simp] theorem State.withDec_ports (f : IrDecoder → IrDecoder) : (s.withDec f).ports = s.ports := rfl
@[simp] theorem State.withDec_pending (f : IrDecoder → IrDecoder) : (s.withDec f).pending = s.pending := rfl
@[simp] theorem State.withDec_refusedMark (f : IrDecoder → IrDecoder) : (s.withDec f).refusedMark = s.refusedMark := rfl

/-! ## withQueue -/

@[simp] theorem State.withQueue_params (f : CmdQueue → CmdQueue) : (s.withQueue f).params = s.params := rfl
@[simp] theorem State.withQueue_dec (f : CmdQueue → CmdQueue) : (s.withQueue f).dec = s.dec := rfl
@[simp] theorem State.withQueue_queue (f : CmdQueue → CmdQueue) : (s.withQueue f).queue = f s.queue := rfl
@[simp] theorem State.withQueue_out (f : CmdQueue → CmdQueue) : (s.withQueue f).out = s.out := rfl
@[simp] theorem State.withQueue_node (f : CmdQueue → CmdQueue) : (s.withQueue f).node = s.node := rfl
@[simp] theorem State.withQueue_ports (f : CmdQueue → CmdQueue) : (s.withQueue f).ports = s.ports := rfl
@[simp] theorem State.withQueue_pending (f : CmdQueue → CmdQueue) : (s.withQueue f).pending = s.pending := rfl
@[simp] theorem State.withQueue_refusedMark (f : CmdQueue → CmdQueue) : (s.withQueue f).refusedMark = s.refusedMark := rfl

/-! ## withOut -/

@[simp] theorem State.withOut_params (f : OutputStage → OutputStage) : (s.withOut f).params = s.params := rfl
@[simp] theorem State.withOut_dec (f : OutputStage → OutputStage) : (s.withOut f).dec = s.dec := rfl
@[simp] theorem State.withOut_queue (f : OutputStage → OutputStage) : (s.withOut f).queue = s.queue := rfl
@[simp] theorem State.withOut_out (f : OutputStage → OutputStage) : (s.withOut f).out = f s.out := rfl
@[simp] theorem State.withOut_node (f : OutputStage → OutputStage) : (s.withOut f).node = s.node := rfl
@[simp] theorem State.withOut_ports (f : OutputStage → OutputStage) : (s.withOut f).ports = s.ports := rfl
@[simp] theorem State.withOut_pending (f : OutputStage → OutputStage) : (s.withOut f).pending = s.pending := rfl
@[simp] theorem State.withOut_refusedMark (f : OutputStage → OutputStage) : (s.withOut f).refusedMark = s.refusedMark := rfl

/-! ## withNode -/

@[simp] theorem State.withNode_params (f : Node → Node) : (s.withNode f).params = s.params := rfl
@[simp] theorem State.withNode_dec (f : Node → Node) : (s.withNode f).dec = s.dec := rfl
@[simp] theorem State.withNode_queue (f : Node → Node) : (s.withNode f).queue = s.queue := rfl
@[simp] theorem State.withNode_out (f : Node → Node) : (s.withNode f).out = s.out := rfl
@[simp] theorem State.withNode_node (f : Node → Node) : (s.withNode f).node = f s.node := rfl
@[simp] theorem State.withNode_ports (f : Node → Node) : (s.withNode f).ports = s.ports := rfl
@[simp] theorem State.withNode_pending (f : Node → Node) : (s.withNode f).pending = s.pending := rfl
@[simp] theorem State.withNode_refusedMark (f : Node → Node) : (s.withNode f).refusedMark = s.refusedMark := rfl

/-! ## emit -/

@[simp] theorem State.emit_params (r : Option IrOut) : (s.emit r).params = s.params := rfl
@[simp] theorem State.emit_dec (r : Option IrOut) : (s.emit r).dec = s.dec := rfl
@[simp] theorem State.emit_queue (r : Option IrOut) : (s.emit r).queue = s.queue := rfl
@[simp] theorem State.emit_out (r : Option IrOut) : (s.emit r).out = s.out := rfl
@[simp] theorem State.emit_node (r : Option IrOut) : (s.emit r).node = s.node := rfl
@[simp] theorem State.emit_pending (r : Option IrOut) : (s.emit r).pending = s.pending := rfl
@[simp] theorem State.emit_refusedMark (r : Option IrOut) : (s.emit r).refusedMark = s.refusedMark := rfl
@[simp] theorem State.emit_irOut (r : Option IrOut) : (s.emit r).ports.irOut = s.ports.irOut ++ r.toList := rfl
@[simp] theorem State.emit_results (r : Option IrOut) : (s.emit r).ports.results = s.ports.results := rfl
@[simp] theorem State.emit_lineHistory (r : Option IrOut) : (s.emit r).ports.lineHistory = s.ports.lineHistory := rfl

/-! ## deliver -/

@[simp] theorem State.deliver_params (r : PortResult) : (s.deliver r).params = s.params := rfl
@[simp] theorem State.deliver_dec (r : PortResult) : (s.deliver r).dec = s.dec := rfl
@[simp] theorem State.deliver_queue (r : PortResult) : (s.deliver r).queue = s.queue := rfl
@[simp] theorem State.deliver_out (r : PortResult) : (s.deliver r).out = s.out := rfl
@[simp] theorem State.deliver_node (r : PortResult) : (s.deliver r).node = s.node := rfl
@[simp] theorem State.deliver_pending (r : PortResult) : (s.deliver r).pending = s.pending := rfl
@[simp] theorem State.deliver_refusedMark (r : PortResult) : (s.deliver r).refusedMark = s.refusedMark := rfl
@[simp] theorem State.deliver_irOut (r : PortResult) : (s.deliver r).ports.irOut = s.ports.irOut := rfl
@[simp] theorem State.deliver_results (r : PortResult) : (s.deliver r).ports.results = s.ports.results ++ [r] := rfl
@[simp] theorem State.deliver_lineHistory (r : PortResult) : (s.deliver r).ports.lineHistory = s.ports.lineHistory := rfl

/-! ## recordLines -/

@[simp] theorem State.recordLines_params : (s.recordLines).params = s.params := rfl
@[simp] theorem State.recordLines_dec : (s.recordLines).dec = s.dec := rfl
@[simp] theorem State.recordLines_queue : (s.recordLines).queue = s.queue := rfl
@[simp] theorem State.recordLines_out : (s.recordLines).out = s.out := rfl
@[simp] theorem State.recordLines_node : (s.recordLines).node = s.node := rfl
@[simp] theorem State.recordLines_pending : (s.recordLines).pending = s.pending := rfl
@[simp] theorem State.recordLines_refusedMark : (s.recordLines).refusedMark = s.refusedMark := rfl
@[simp] theorem State.recordLines_irOut : (s.recordLines).ports.irOut = s.ports.irOut := rfl
@[simp] theorem State.recordLines_results : (s.recordLines).ports.results = s.ports.results := rfl
@[simp] theorem State.recordLines_lineHistory : (s.recordLines).ports.lineHistory = s.ports.lineHistory ++ [s.out.lines] := rfl

/-! ## withFetchWord -/

@[simp] theorem State.withFetchWord_params (nbits w : Nat) :
    (s.withFetchWord nbits w).params = s.params := rfl
@[simp] theorem State.withFetchWord_dec (nbits w : Nat) :
    (s.withFetchWord nbits w).dec = s.dec := rfl
@[simp] theorem State.withFetchWord_queue (nbits w : Nat) :
    (s.withFetchWord nbits w).queue = s.queue := rfl
@[simp] theorem State.withFetchWord_out (nbits w : Nat) :
    (s.withFetchWord nbits w).out = s.out := rfl
@[simp] theorem State.withFetchWord_node (nbits w : Nat) :
    (s.withFetchWord nbits w).node = s.node := rfl
@[simp] theorem State.withFetchWord_ports (nbits w : Nat) :
    (s.withFetchWord nbits w).ports = s.ports := rfl
@[simp] theorem State.withFetchWord_pending (nbits w : Nat) :
    (s.withFetchWord nbits w).pending = .present (tableWord nbits w) :: s.pending := rfl
@[simp] theorem State.withFetchWord_refusedMark (nbits w : Nat) :
    (s.withFetchWord nbits w).refusedMark = s.refusedMark := rfl

/-! ## Updates of the IR decoder -/

variable (x : IrDecoder)

@[simp] theorem IrDecoder.accept_pos (p : Nat) (d : Micros) (p' : BitVec 7) : (x.accept p d p').pos = p' := rfl
@[simp] theorem IrDecoder.accept_frameReady (p : Nat) (d : Micros) (p' : BitVec 7) : (x.accept p d p').frameReady = x.frameReady := rfl
@[simp] theorem IrDecoder.accept_baseline (p : Nat) (d : Micros) (p' : BitVec 7) : (x.accept p d p').baseline = x.baseline := rfl
@[simp] theorem IrDecoder.accept_acc (p : Nat) (d : Micros) (p' : BitVec 7) : (x.accept p d p').acc = x.acc := rfl
@[simp] theorem IrDecoder.accept_raw (p : Nat) (d : Micros) (p' : BitVec 7) : (x.accept p d p').raw = x.raw.setIfInBounds p d := rfl
@[simp] theorem IrDecoder.accept_repeatCnt (p : Nat) (d : Micros) (p' : BitVec 7) : (x.accept p d p').repeatCnt = x.repeatCnt := rfl
@[simp] theorem IrDecoder.accept_lastValid (p : Nat) (d : Micros) (p' : BitVec 7) : (x.accept p d p').lastValid = x.lastValid := rfl
@[simp] theorem IrDecoder.accept_lastAddr (p : Nat) (d : Micros) (p' : BitVec 7) : (x.accept p d p').lastAddr = x.lastAddr := rfl
@[simp] theorem IrDecoder.accept_lastCmd (p : Nat) (d : Micros) (p' : BitVec 7) : (x.accept p d p').lastCmd = x.lastCmd := rfl

@[simp] theorem IrDecoder.abort_pos : (x.abort).pos = 0#7 := rfl
@[simp] theorem IrDecoder.abort_frameReady : (x.abort).frameReady = x.frameReady := rfl
@[simp] theorem IrDecoder.abort_baseline : (x.abort).baseline = x.baseline := rfl
@[simp] theorem IrDecoder.abort_acc : (x.abort).acc = x.acc := rfl
@[simp] theorem IrDecoder.abort_raw : (x.abort).raw = x.raw := rfl
@[simp] theorem IrDecoder.abort_repeatCnt : (x.abort).repeatCnt = x.repeatCnt := rfl
@[simp] theorem IrDecoder.abort_lastValid : (x.abort).lastValid = x.lastValid := rfl
@[simp] theorem IrDecoder.abort_lastAddr : (x.abort).lastAddr = x.lastAddr := rfl
@[simp] theorem IrDecoder.abort_lastCmd : (x.abort).lastCmd = x.lastCmd := rfl

@[simp] theorem IrDecoder.tick_pos (ts : Micros) : (x.tick ts).pos = 0#7 := rfl
@[simp] theorem IrDecoder.tick_frameReady (ts : Micros) : (x.tick ts).frameReady = x.frameReady := rfl
@[simp] theorem IrDecoder.tick_baseline (ts : Micros) : (x.tick ts).baseline = ts := rfl
@[simp] theorem IrDecoder.tick_acc (ts : Micros) : (x.tick ts).acc = x.acc := rfl
@[simp] theorem IrDecoder.tick_raw (ts : Micros) : (x.tick ts).raw = x.raw := rfl
@[simp] theorem IrDecoder.tick_repeatCnt (ts : Micros) : (x.tick ts).repeatCnt = BitVec.ofNat 3 (min (x.repeatCnt.toNat + 1) 4) := rfl
@[simp] theorem IrDecoder.tick_lastValid (ts : Micros) : (x.tick ts).lastValid = x.lastValid := rfl
@[simp] theorem IrDecoder.tick_lastAddr (ts : Micros) : (x.tick ts).lastAddr = x.lastAddr := rfl
@[simp] theorem IrDecoder.tick_lastCmd (ts : Micros) : (x.tick ts).lastCmd = x.lastCmd := rfl

/-! ## Updates of the output stage -/

variable (o : OutputStage)

@[simp] theorem OutputStage.write_pend (P : Params) (v : Rgb Level) : (o.write P v).pend = v.map P.gamma := rfl
@[simp] theorem OutputStage.write_comm (P : Params) (v : Rgb Level) : (o.write P v).comm = o.comm := rfl
@[simp] theorem OutputStage.write_chEn (P : Params) (v : Rgb Level) : (o.write P v).chEn = o.chEn := rfl
@[simp] theorem OutputStage.write_genRun (P : Params) (v : Rgb Level) : (o.write P v).genRun = o.genRun := rfl
@[simp] theorem OutputStage.write_ticks (P : Params) (v : Rgb Level) : (o.write P v).ticks = o.ticks := rfl

@[simp] theorem OutputStage.roll_pend (P : Params) : (o.roll P).pend = o.pend := rfl
@[simp] theorem OutputStage.roll_comm (P : Params) : (o.roll P).comm = o.pend := rfl
@[simp] theorem OutputStage.roll_chEn (P : Params) : (o.roll P).chEn = o.pend.map channelEnable := rfl
@[simp] theorem OutputStage.roll_genRun (P : Params) : (o.roll P).genRun = o.genRun := rfl
@[simp] theorem OutputStage.roll_ticks (P : Params) : (o.roll P).ticks = min (o.ticks + 1) P.tickSatMax := rfl

@[simp] theorem OutputStage.drained_pend : (o.drained).pend = o.pend := rfl
@[simp] theorem OutputStage.drained_comm : (o.drained).comm = o.comm := rfl
@[simp] theorem OutputStage.drained_chEn : (o.drained).chEn = o.chEn := rfl
@[simp] theorem OutputStage.drained_genRun : (o.drained).genRun = o.genRun := rfl
@[simp] theorem OutputStage.drained_ticks : (o.drained).ticks = 0 := rfl

@[simp] theorem OutputStage.halt_pend : (o.halt).pend = o.pend := rfl
@[simp] theorem OutputStage.halt_comm : (o.halt).comm = o.comm := rfl
@[simp] theorem OutputStage.halt_chEn : (o.halt).chEn = Rgb.all false := rfl
@[simp] theorem OutputStage.halt_genRun : (o.halt).genRun = false := rfl
@[simp] theorem OutputStage.halt_ticks : (o.halt).ticks = o.ticks := rfl

@[simp] theorem OutputStage.resume_pend : (o.resume).pend = o.pend := rfl
@[simp] theorem OutputStage.resume_comm : (o.resume).comm = o.comm := rfl
@[simp] theorem OutputStage.resume_chEn : (o.resume).chEn = o.chEn := rfl
@[simp] theorem OutputStage.resume_genRun : (o.resume).genRun = true := rfl
@[simp] theorem OutputStage.resume_ticks : (o.resume).ticks = o.ticks := rfl

end Sys2Proof.Machine
end

