-- ==== Sys2Proof/Laws/Ops.lean ====
section
/-! SUPPORT. For each shared operation, one lemma that says everything it can do. -/

namespace Sys2Proof.Machine

/-! ## Operands -/

@[simp] theorem Rgb_get_map {α β : Type} (f : α → β) (x : Rgb α) (c : Channel) :
    (x.map f).get c = f (x.get c) := by cases c <;> rfl

@[simp] theorem Rgb_get_all {α : Type} (a : α) (c : Channel) : (Rgb.all a).get c = a := by cases c <;> rfl

theorem Rgb_ext_get {α : Type} {x y : Rgb α} (h : ∀ c, x.get c = y.get c) : x = y := by
  cases x; cases y
  have hr := h .red; have hg := h .green; have hb := h .blue
  simp only [Rgb.get] at hr hg hb
  subst hr hg hb; rfl

theorem lines_get (o : OutputStage) (c : Channel) : o.lines.get c = o.line c := by cases c <;> rfl

/-- `setAccBit` writes bit `k` and no other. -/
theorem setAccBit_getLsbD (acc : BitVec 32) (k : Nat) (b : Bool) (hk : k < 32) (j : Nat) :
    (setAccBit acc k b).getLsbD j = if j = k then b else acc.getLsbD j := by
  have e : (1#32 <<< k).getLsbD j = decide (j = k) := by
    simp only [BitVec.getLsbD_shiftLeft, BitVec.getLsbD_one]
    by_cases h : j = k
    · subst h; simp [hk]
    · by_cases h2 : j < k
      · simp [h, h2]
      · have : j - k ≠ 0 := by omega
        simp [h, this]
  unfold setAccBit
  by_cases h : j = k
  · subst h
    cases b
    · simp only [Bool.false_eq_true, if_false, BitVec.getLsbD_and, BitVec.getLsbD_not, e]; simp
    · simp only [if_true, BitVec.getLsbD_or, e]; simp
  · cases b
    · simp only [Bool.false_eq_true, if_false, BitVec.getLsbD_and, BitVec.getLsbD_not, e, h]
      by_cases hj : j < 32
      · simp [hj]
      · simp [BitVec.getLsbD_of_ge acc j (by omega)]
    · simp only [if_true, BitVec.getLsbD_or, e, h]; simp

/-! ## IR decoder -/

/-- The phase of a position, by cases (10_state.md R22). -/
theorem phaseOf_cases (p : Nat) :
    (p = 0 ∧ phaseOf p = .awaitingStart) ∨ (p = 1 ∧ phaseOf p = .awaitingLeadPause) ∨
    (66 ≤ p ∧ phaseOf p = .complete) ∨
    (∃ k, k < 32 ∧ p = 2 + 2 * k ∧ phaseOf p = .awaitingBitPulse k) ∨
    (∃ k, k < 32 ∧ p = 3 + 2 * k ∧ phaseOf p = .awaitingBitPause k) := by
  unfold phaseOf
  by_cases h0 : p = 0
  · simp [h0]
  by_cases h1 : p = 1
  · simp [h1]
  by_cases h66 : 66 ≤ p
  · simp [h0, h1, h66]
  by_cases he : p % 2 = 0
  · refine .inr (.inr (.inr (.inl ⟨(p - 2) / 2, by omega, by omega, by simp [h0, h1, h66, he]⟩)))
  · refine .inr (.inr (.inr (.inr ⟨(p - 3) / 2, by omega, by omega, by simp [h0, h1, h66, he]⟩)))

/-- POS + 1 as a number (40_ir_decoder.md R103). -/
theorem pos_succ {x : BitVec 7} {n : Nat} (h : x.toNat = n) : x + 1#7 = BitVec.ofNat 7 (n + 1) := by
  subst h; apply BitVec.eq_of_toNat_eq; simp

/-- A position as a number. -/
theorem pos_eq_ofNat {x : BitVec 7} {n : Nat} (hn : n < 128) : x = BitVec.ofNat 7 n ↔ x.toNat = n := by
  rw [← BitVec.toNat_inj, BitVec.toNat_ofNat, Nat.mod_eq_of_lt (by omega)]

/-- What EDGE can do to a decoder: drop, ignore, abort, accept (40_ir_decoder.md R103). `y` is the decoder with the
new baseline, `d` the duration. -/
theorem edge_cases (P : Params) (p : Polarity) (ts : Micros) (x : IrDecoder) :
    let y := { x with baseline := ts }
    let d := duration ts x.baseline
    let r := x.edge P p ts
    (x.frameReady = true ∧ r = (y, none)) ∨
    (x.frameReady = false ∧
      ((x.pos.toNat = 0 ∧ (isPulse P p && isStartPulse P d) = true ∧ r = (y.accept 0 d 1#7, none)) ∨
       (x.pos.toNat = 0 ∧ (isPulse P p && isStartPulse P d) = false ∧ r = (y, none)) ∨
       (x.pos.toNat = 1 ∧ (!isPulse P p && isLeadPause P d) = true ∧ isRepeatPause P d = true ∧ x.repeatCnt.toNat < 4 ∧
          r = ({ y.accept 1 d 0#7 with repeatCnt := 0#3 }, x.repeatRecord P)) ∨
       (x.pos.toNat = 1 ∧ (!isPulse P p && isLeadPause P d) = true ∧ isRepeatPause P d = true ∧ 4 ≤ x.repeatCnt.toNat ∧
          r = (y.accept 1 d 0#7, none)) ∨
       (x.pos.toNat = 1 ∧ (!isPulse P p && isLeadPause P d) = true ∧ isRepeatPause P d = false ∧
          r = (y.accept 1 d 2#7, none)) ∨
       (x.pos.toNat = 1 ∧ (!isPulse P p && isLeadPause P d) = false ∧ r = (y.abort, none)) ∨
       (∃ k, k < 32 ∧ x.pos.toNat = 2 + 2 * k ∧ (isPulse P p && isBitPulse P d) = true ∧
          r = (y.accept (2 + 2 * k) d (BitVec.ofNat 7 (3 + 2 * k)), none)) ∨
       (∃ k, k < 32 ∧ x.pos.toNat = 2 + 2 * k ∧ (isPulse P p && isBitPulse P d) = false ∧ r = (y.abort, none)) ∨
       (∃ k, k < 32 ∧ x.pos.toNat = 3 + 2 * k ∧ (!isPulse P p && isBitPause P d) = true ∧
          r = ({ y.accept (3 + 2 * k) d (BitVec.ofNat 7 (4 + 2 * k)) with
                  acc := setAccBit x.acc k (pauseBit P d), frameReady := k == 31 }, none)) ∨
       (∃ k, k < 32 ∧ x.pos.toNat = 3 + 2 * k ∧ (!isPulse P p && isBitPause P d) = false ∧ r = (y.abort, none)) ∨
       (66 ≤ x.pos.toNat ∧ r = (y, none)))) := by
  intro y d r
  by_cases hr : x.frameReady = true
  · exact .inl ⟨hr, by simp [r, y, IrDecoder.edge, hr]⟩
  have hr' : x.frameReady = false := by simpa using hr
  refine .inr ⟨hr', ?_⟩
  have hrr : r = y.classify P (isPulse P p) d := by simp [r, y, d, IrDecoder.edge, hr']
  have hy : y.pos = x.pos := rfl
  obtain ⟨h, e⟩ | ⟨h, e⟩ | ⟨h, e⟩ | ⟨k, hk, h, e⟩ | ⟨k, hk, h, e⟩ := phaseOf_cases x.pos.toNat
  · rw [IrDecoder.classify, hy, e] at hrr
    by_cases c : (isPulse P p && isStartPulse P d) = true
    · exact .inl ⟨h, c, by rw [hrr]; simp [IrDecoder.edgeAtStart, c]⟩
    · exact .inr (.inl ⟨h, by simpa using c, by rw [hrr]; simp [IrDecoder.edgeAtStart, c]⟩)
  · rw [IrDecoder.classify, hy, e] at hrr
    have hrec : y.repeatRecord P = x.repeatRecord P := rfl
    have hcnt : y.repeatCnt = x.repeatCnt := rfl
    by_cases c : (!isPulse P p && isLeadPause P d) = true
    · by_cases c2 : isRepeatPause P d = true
      · by_cases c3 : x.repeatCnt.toNat < 4
        · refine .inr (.inr (.inl ⟨h, c, c2, c3, ?_⟩))
          rw [hrr]; simp [IrDecoder.edgeAtLead, c, c2, hcnt, Config.repeatCap, c3, hrec]
        · refine .inr (.inr (.inr (.inl ⟨h, c, c2, by omega, ?_⟩)))
          rw [hrr]; simp [IrDecoder.edgeAtLead, c, c2, hcnt, Config.repeatCap, c3]
      · refine .inr (.inr (.inr (.inr (.inl ⟨h, c, by simpa using c2, ?_⟩))))
        rw [hrr]; simp [IrDecoder.edgeAtLead, c, c2]
    · refine .inr (.inr (.inr (.inr (.inr (.inl ⟨h, by simpa using c, ?_⟩)))))
      rw [hrr]; simp [IrDecoder.edgeAtLead, c]
  · rw [IrDecoder.classify, hy, e] at hrr
    exact .inr (.inr (.inr (.inr (.inr (.inr (.inr (.inr (.inr (.inr ⟨h, hrr⟩)))))))))
  · rw [IrDecoder.classify, hy, e] at hrr
    by_cases c : (isPulse P p && isBitPulse P d) = true
    · refine .inr (.inr (.inr (.inr (.inr (.inr (.inl ⟨k, hk, h, c, ?_⟩))))))
      rw [hrr]; simp only [IrDecoder.edgeAtBitPulse, c, if_true, hy, h, pos_succ h]
      congr 3; omega
    · refine .inr (.inr (.inr (.inr (.inr (.inr (.inr (.inl ⟨k, hk, h, by simpa using c, ?_⟩)))))))
      rw [hrr]; simp [IrDecoder.edgeAtBitPulse, c]
  · rw [IrDecoder.classify, hy, e] at hrr
    by_cases c : (!isPulse P p && isBitPause P d) = true
    · refine .inr (.inr (.inr (.inr (.inr (.inr (.inr (.inr (.inl ⟨k, hk, h, c, ?_⟩))))))))
      have e65 : (y.frameReady || y.pos == 65#7) = (k == 31) := by
        have : y.frameReady = false := hr'
        rw [this, hy, Bool.false_or, Bool.eq_iff_iff, beq_iff_eq, beq_iff_eq, pos_eq_ofNat (by omega), h]
        omega
      rw [hrr]; simp only [IrDecoder.edgeAtBitPause, c, if_true, e65]
      simp only [hy, h, pos_succ h, show 3 + 2 * k + 1 = 4 + 2 * k from by omega]; rfl
    · refine .inr (.inr (.inr (.inr (.inr (.inr (.inr (.inr (.inr (.inl ⟨k, hk, h, by simpa using c, ?_⟩)))))))))
      rw [hrr]; simp [IrDecoder.edgeAtBitPause, c]

/-- What DEFRAME can do to a decoder (40_ir_decoder.md R120). -/
theorem deframe_cases (x : IrDecoder) :
    (checksumValid x.acc = true ∧
      x.deframe = { x with
        lastAddr := frameAddr x.acc, lastCmd := frameCmd x.acc, lastValid := true,
        repeatCnt := 0#3, frameReady := false, pos := 0#7 }) ∨
    (checksumValid x.acc = false ∧ x.deframe = { x with frameReady := false, pos := 0#7 }) := by
  cases h : checksumValid x.acc <;> simp [IrDecoder.deframe, h]

/-! ## Command queue -/

@[simp] theorem nextIndex_eq (i : BitVec 4) : nextIndex i = i + 1#4 := by
  revert i; decide

/-- What ENQ can do to a queue (41_command_queue.md R141). -/
theorem enqueue_cases (b : Byte) (q : CmdQueue) :
    (q.isFull = true ∧ q.enqueue b = q) ∨
    (q.isFull = false ∧
      q.enqueue b = { q with slot := q.slot.set q.wr.toNat b q.wr.isLt, wr := q.wr + 1#4 }) := by
  cases h : q.isFull <;> simp [CmdQueue.enqueue, h]

/-- What DEQ can do to a queue, and the byte it returns (41_command_queue.md R145). -/
theorem dequeue_cases (q : CmdQueue) :
    (q.wr = q.rd ∧ q.dequeue = q ∧ q.front = 0#8) ∨
    (q.wr ≠ q.rd ∧ q.dequeue = { q with rd := q.rd + 1#4 } ∧ q.front = q.read q.rd) := by
  by_cases h : q.wr = q.rd
  · exact .inl ⟨h, by simp [CmdQueue.dequeue, CmdQueue.isEmpty, h],
      by simp [CmdQueue.front, CmdQueue.isEmpty, h, Config.sentinel]⟩
  · exact .inr ⟨h, by simp [CmdQueue.dequeue, CmdQueue.isEmpty, h], by simp [CmdQueue.front, CmdQueue.isEmpty, h]⟩

/-- Reading a slot after one slot was written. -/
theorem read_set (q : CmdQueue) (w i : BitVec 4) (b : Byte) (r : BitVec 4) :
    CmdQueue.read { q with slot := q.slot.set w.toNat b w.isLt, wr := r } i = if i = w then b else q.read i := by
  by_cases h : i = w
  · subst h; simp [CmdQueue.read]
  · have : w.toNat ≠ i.toNat := fun e => h (BitVec.eq_of_toNat_eq e.symm)
    simp [CmdQueue.read, h, this]

/-! ## Output stage -/

theorem channelEnable_iff (v : Level) : channelEnable v = true ↔ 2 ≤ v.toNat := by
  simp [channelEnable, Config.dutyOffThreshold]; omega

/-! ## The parameters -/

theorem gamma_params (v : Level) : Config.params.gamma v = Config.gammaAt v.toNat := by
  simp [Params.gamma, Config.params]

/-- Reading an entry of a table after `setIfInBounds`. -/
theorem raw_setIfInBounds (v : Vector Micros 66) (p j : Nat) (d : Micros) :
    (v.setIfInBounds p d)[j]? = if p = j ∧ j < 66 then some d else v[j]? := by
  rw [Vector.getElem?_setIfInBounds]
  by_cases h : p = j
  · by_cases h2 : j < 66 <;> simp [h, h2]
  · simp [h]

end Sys2Proof.Machine
end

