-- ==== Sys2Proof/Laws/PerInstr.lean ====
section
/-! SUPPORT. Statements made for every instruction: RowMatch, that the encoded word belongs to the instruction's row of
spec/opcode_table.json. -/

namespace Sys2Proof.Laws

/-- The word of an instruction fits its row's mask and match (30_encoding.md R73 to R82, R90, R93). -/
def RowMatch.Statement (i : Instr) : Prop := i.row.fits (encode i) = true


theorem RowMatch.edge (p : Polarity) (ts : Micros) : RowMatch.Statement (.edge p ts) := by
  simp only [RowMatch.Statement, OpcodeRow.fits, Instr.row, encode, PortWord.format, PortWord.bits, beq_self_eq_true,
    Bool.true_and, beq_iff_eq]
  ext i hi
  interval_cases i <;> simp

theorem RowMatch.bgTick (ts : Micros) : RowMatch.Statement (.bgTick ts) := by
  simp only [RowMatch.Statement, OpcodeRow.fits, Instr.row, encode, PortWord.format, PortWord.bits, beq_self_eq_true,
    Bool.true_and, beq_iff_eq]
  ext i hi
  interval_cases i <;> simp

theorem RowMatch.deframe : RowMatch.Statement .deframe := rfl

theorem RowMatch.enq (b : Byte) : RowMatch.Statement (.enq b) := by
  simp only [RowMatch.Statement, OpcodeRow.fits, Instr.row, encode, PortWord.format, PortWord.bits, beq_self_eq_true,
    Bool.true_and, beq_iff_eq]
  ext i hi
  interval_cases i <;> simp

theorem RowMatch.deq : RowMatch.Statement .deq := rfl

theorem RowMatch.rollover : RowMatch.Statement .rollover := rfl

theorem RowMatch.drain : RowMatch.Statement .drain := rfl

theorem RowMatch.pwrOff : RowMatch.Statement .pwrOff := rfl

theorem RowMatch.pwrOn : RowMatch.Statement .pwrOn := rfl

theorem RowMatch.outWrite (vr vg vb : Level) : RowMatch.Statement (.outWrite vr vg vb) := by
  simp only [RowMatch.Statement, OpcodeRow.fits, Instr.row, encode, PortWord.format, PortWord.bits, beq_self_eq_true,
    Bool.true_and, beq_iff_eq]
  ext i hi
  interval_cases i <;> simp

theorem RowMatch.nocmd : RowMatch.Statement .nocmd := rfl

theorem RowMatch.cmdPwrOff : RowMatch.Statement .cmdPwrOff := rfl

theorem RowMatch.cmdPwrOn : RowMatch.Statement .cmdPwrOn := rfl

theorem RowMatch.briDec : RowMatch.Statement .briDec := rfl

theorem RowMatch.briInc : RowMatch.Statement .briInc := rfl

theorem RowMatch.spdDec : RowMatch.Statement .spdDec := rfl

theorem RowMatch.spdInc : RowMatch.Statement .spdInc := rfl

theorem RowMatch.selAnim (n : BitVec 4) : RowMatch.Statement (.selAnim n) := by
  simp only [RowMatch.Statement, OpcodeRow.fits, Instr.row, encode, PortWord.format, PortWord.bits, beq_self_eq_true,
    Bool.true_and, beq_iff_eq]
  ext i hi
  interval_cases i <;> simp

theorem RowMatch.selColor (n : BitVec 5) : RowMatch.Statement (.selColor n) := by
  simp only [RowMatch.Statement, OpcodeRow.fits, Instr.row, encode, PortWord.format, PortWord.bits, beq_self_eq_true,
    Bool.true_and, beq_iff_eq]
  ext i hi
  interval_cases i <;> simp

theorem RowMatch.setBri (v : BitVec 6) : RowMatch.Statement (.setBri v) := by
  simp only [RowMatch.Statement, OpcodeRow.fits, Instr.row, encode, PortWord.format, PortWord.bits, beq_self_eq_true,
    Bool.true_and, beq_iff_eq]
  ext i hi
  interval_cases i <;> simp

theorem RowMatch.setSpd (v : BitVec 6) : RowMatch.Statement (.setSpd v) := by
  simp only [RowMatch.Statement, OpcodeRow.fits, Instr.row, encode, PortWord.format, PortWord.bits, beq_self_eq_true,
    Bool.true_and, beq_iff_eq]
  ext i hi
  interval_cases i <;> simp

theorem RowMatch.unknown01 : RowMatch.Statement .unknown01 := rfl

theorem RowMatch.unknown08 (x : BitVec 3) : RowMatch.Statement (.unknown08 x) := by
  simp only [RowMatch.Statement, OpcodeRow.fits, Instr.row, encode, PortWord.format, PortWord.bits, beq_self_eq_true,
    Bool.true_and, beq_iff_eq]
  ext i hi
  interval_cases i <;> simp

theorem RowMatch.unknown40 (x : BitVec 6) : RowMatch.Statement (.unknown40 x) := by
  simp only [RowMatch.Statement, OpcodeRow.fits, Instr.row, encode, PortWord.format, PortWord.bits, beq_self_eq_true,
    Bool.true_and, beq_iff_eq]
  ext i hi
  interval_cases i <;> simp

theorem RowMatch.bcastAnimOff : RowMatch.Statement .bcastAnimOff := rfl

theorem RowMatch.bcastAnimOn : RowMatch.Statement .bcastAnimOn := rfl

end Sys2Proof.Laws
end

