-- ==== Sys2Proof/Laws/Step.lean ====
section
/-! SUPPORT. What one step can do, and what an instruction's next state leaves alone. -/

namespace Sys2Proof.Machine

/-! ## Outcomes -/

theorem afterExec_next {r : Host.Outcome State Fault Refusal} {t : State} (h : afterExec r = .next t) :
    ∃ u, r = .next u ∧ t = u.recordLines := by
  cases r with
  | next u => exact ⟨u, rfl, by simpa [afterExec] using h.symm⟩
  | fault e => cases h
  | refused e => cases h

/-- Everything a step that answers a next state can have done. -/
theorem step_cases {s t : State} (h : step s = .next t) :
    s.refusedMark = false ∧
    ((s.pending = [] ∧ t = s) ∨
     ∃ x rest, s.pending = x :: rest ∧
      ((∃ i u, fetch x s = .run i ∧ exec i { s with pending := rest } = .next u ∧ t = u.recordLines) ∨
       (fetch x s = .nothing ∧ t = { s with pending := rest }) ∨
       (fetch x s = .reserved ∧ t = { s with refusedMark := true }))) := by
  unfold step at h
  cases hm : s.refusedMark with
  | true => simp [hm] at h
  | false =>
    refine ⟨rfl, ?_⟩
    simp only [hm, Bool.false_eq_true, if_false] at h
    cases hp : s.pending with
    | nil => rw [hp] at h; exact .inl ⟨rfl, by injection h with h; exact h.symm⟩
    | cons x rest =>
      rw [hp] at h
      refine .inr ⟨x, rest, rfl, ?_⟩
      cases hf : fetch x s with
      | run i =>
        simp only [hf] at h
        obtain ⟨u, hu, ht⟩ := afterExec_next h
        exact .inl ⟨i, u, rfl, hu, ht⟩
      | nothing => simp only [hf] at h; injection h with h; exact .inr (.inl ⟨rfl, h.symm⟩)
      | reserved => simp only [hf] at h; injection h with h; exact .inr (.inr ⟨rfl, h.symm⟩)

/-- A step at a pending request that asks for an instruction. -/
theorem step_of_run {s : State} {x : Input} {rest : List Input} {i : Instr} (hm : s.refusedMark = false)
    (hp : s.pending = x :: rest) (hf : fetch x s = .run i) :
    step s = afterExec (exec i { s with pending := rest }) := by
  simp [step, hm, hp, hf]

/-! ## Guards -/

theorem execDeframe_next {s t : State} (h : execDeframe s = .next t) :
    s.dec.frameReady = true ∧ t = (s.withDec (·.deframe)).emit (s.dec.frameRecord s.params) := by
  unfold execDeframe at h
  cases hr : s.dec.frameReady with
  | true => rw [hr] at h; injection h with h; exact ⟨rfl, h.symm⟩
  | false => rw [hr] at h; cases h

theorem execRollover_next {s t : State} (h : execRollover s = .next t) :
    s.out.genRun = true ∧ t = s.withOut (·.roll s.params) := by
  unfold execRollover at h
  cases hr : s.out.genRun with
  | true => rw [hr] at h; injection h with h; exact ⟨rfl, h.symm⟩
  | false => rw [hr] at h; cases h

/-! ## Meanings over the units -/

@[simp] theorem emit_none (s : State) : s.emit none = s := by simp [State.emit]

/-- EDGE as what it does to the decoder and what it emits. -/
theorem exec_edge_eq {p : Polarity} {ts : Micros} {s : State} {x : IrDecoder} {r : Option IrOut}
    (h : s.dec.edge s.params p ts = (x, r)) :
    exec (.edge p ts) s = .next (({ s with dec := x } : State).emit r) := by
  simp [exec, execEdge, h, State.withDec]

/-- No instruction writes the parameters, the requests or the refused mark (10_state.md R38, 60_exceptions.md R227). -/
theorem exec_keeps_run {i : Instr} {s t : State} (h : exec i s = .next t) :
    t.params = s.params ∧ t.pending = s.pending ∧ t.refusedMark = s.refusedMark := by
  cases i with
  | deframe => obtain ⟨_, rfl⟩ := execDeframe_next h; simp
  | rollover => obtain ⟨_, rfl⟩ := execRollover_next h; simp
  | selAnim n => injection h with h; subst h; split <;> simp
  | selColor n => injection h with h; subst h; split <;> simp
  | setBri n => injection h with h; subst h; split <;> simp
  | _ => injection h with h; subst h; simp

end Sys2Proof.Machine
end

