-- ==== Sys2Proof/Tests/Slice0.lean ====
section
/-! SUPPORT. Tests of the model: ill-formed terms that are refused, words written out from the encodings, single steps
whose expected results stand in spec/95_test_vectors.md (its row is named), and for every obligation with hypotheses a
state and operands that meet them. -/

namespace Sys2Proof.Tests

open Sys2Proof.Machine

/-! ## A test configuration (95_test_vectors.md, "Test configuration") -/

/-- A gamma table by its entries. -/
def table (f : Nat → Level) : Vector Level 1024 := ⟨((List.range 1024).map f).toArray, by simp⟩

/-- The test parameters; KEYMAP maps one key to BRIINC on a node that is not animated. -/
def params : Params where
  tUnitX2 := 1125
  pulseEndEdge := .rise
  acceptedAddress := 0xEF00#16
  gammaLut := table fun i => BitVec.ofNat 10 i
  tickSatMax := 255
  pwmPeriod := .counts1023
  keymap := [⟨0xEF00#16, 0x45#8, false, 0x05#8⟩]
  animSmooth := Vector.ofFn fun i => i.val == 3
  palette := Vector.ofFn fun i => if i.val = 2 then ⟨1023#10, 0#10, 0#10⟩ else Rgb.all 0#10

/-- Reset with the test parameters. -/
def base : State := { State.reset with params := params }

/-- The decoder at a position with a baseline of 0. -/
def decAt (pos : BitVec 7) : State := { base with dec := { IrDecoder.reset with pos := pos } }

/-- The decoder at position 1 with a repeat count and a last frame. -/
def leadWith (cnt : BitVec 3) (valid : Bool) (addr : BitVec 16) (cmd : Byte) : State :=
  { base with dec := { IrDecoder.reset with
      pos := 1#7, repeatCnt := cnt, lastValid := valid, lastAddr := addr, lastCmd := cmd } }

/-- A completed frame that waits, REPEAT_CNT = 3. -/
def frameWith (acc : BitVec 32) : State :=
  { base with dec := { IrDecoder.reset with pos := 66#7, frameReady := true, acc := acc, repeatCnt := 3#3 } }

/-- The queue with given indices, slot `i` holding `0x80 + i`. -/
def queueAt (wr rd : BitVec 4) : State :=
  { base with queue := ⟨wr, rd, Vector.ofFn fun i => BitVec.ofNat 8 (0x80 + i.val)⟩ }

/-- An output stage. -/
def outWith (pend comm : Rgb Level) (en : Rgb Bool) (run : Bool) (ticks : Nat) : State :=
  { base with out := ⟨pend, comm, en, run, ticks⟩ }

/-- A state with requests. -/
def asking (s : State) (xs : List Input) : State := { s with pending := xs }

/-- The next state of an outcome, or the given state if there is none. -/
def nextOr (s : State) : Host.Outcome State Fault Refusal → State
  | .next t => t
  | .fault _ => s
  | .refused _ => s

/-- Whether an outcome is a next state. -/
def isNext : Host.Outcome State Fault Refusal → Bool
  | .next _ => true
  | .fault _ => false
  | .refused _ => false

/-- The state after one instruction. -/
def after (i : Instr) (s : State) : State := nextOr s (exec i s)

theorem exec_after {i : Instr} {s : State} (h : isNext (exec i s) = true) : exec i s = .next (after i s) := by
  unfold after
  cases e : exec i s with
  | next t => rfl
  | fault r => rw [e] at h; cases h
  | refused r => rw [e] at h; cases h

theorem step_after {s : State} (h : isNext (step s) = true) : step s = .next (nextOr s (step s)) := by
  cases e : step s with
  | next t => rfl
  | fault r => rw [e] at h; cases h
  | refused r => rw [e] at h; cases h

/-! ## WellFormed refuses (30_encoding.md R91, 00_scope.md R8) -/

theorem test_wf_selanim : (Instr.selAnim 3#4).wellFormed = true ∧ (Instr.selAnim 4#4).wellFormed = false := by decide
theorem test_wf_selcolor :
    (Instr.selColor 15#5).wellFormed = true ∧ (Instr.selColor 16#5).wellFormed = false := by decide
theorem test_wf_setbri : (Instr.setBri 1#6).wellFormed = true ∧ (Instr.setBri 0#6).wellFormed = false := by decide
theorem test_wf_unit : ¬ ({ params with tUnitX2 := 0 } : Params).WellFormed := fun h => absurd h.1 (by decide)
theorem test_wf_tick_sat : ¬ ({ params with tickSatMax := 0 } : Params).WellFormed :=
  fun h => absurd h.2.1 (by decide)
theorem test_wf_gamma :
    ¬ ({ params with gammaLut := table fun i => BitVec.ofNat 10 (1023 - i) } : Params).WellFormed :=
  fun h => absurd (h.2.2 0#10 1#10 (by decide)) (by decide +kernel)

/-! ## Decoding of words written out bit by bit (30_encoding.md R73 to R82; 95_test_vectors.md V89 to V114) -/

theorem test_decode_edge_rise :
    decodeOp 0b00010000000000011111111111111111#32 = .ok (.edge .rise 65535#16) := by decide
theorem test_decode_edge_fall : decodeOp 0b00010000000000000000000000000000#32 = .ok (.edge .fall 0#16) := by decide
theorem test_decode_bg_tick : decodeOp 0b00100000000000001111111111111111#32 = .ok (.bgTick 65535#16) := by decide
theorem test_decode_deframe : decodeOp 0b00110000000000000000000000000000#32 = .ok .deframe := by decide
theorem test_decode_enq : decodeOp 0b01000000000000000000000011111111#32 = .ok (.enq 0xFF#8) := by decide
theorem test_decode_deq : decodeOp 0b01010000000000000000000000000000#32 = .ok .deq := by decide
theorem test_decode_rollover : decodeOp 0b01100000000000000000000000000000#32 = .ok .rollover := by decide
theorem test_decode_drain : decodeOp 0b01110000000000000000000000000000#32 = .ok .drain := by decide
theorem test_decode_pwr_off : decodeOp 0b10000000000000000000000000000000#32 = .ok .pwrOff := by decide
theorem test_decode_pwr_on : decodeOp 0b10010000000000000000000000000000#32 = .ok .pwrOn := by decide
theorem test_decode_out_write :
    decodeOp 0b11100000000000000000000000000000#32 = .ok (.outWrite 512#10 0#10 0#10) ∧
    decodeOp 0b11000000000100000000100000000000#32 = .ok (.outWrite 1#10 2#10 0#10) := by decide

/-- V89, V90, V93, V94, V96, V98, V100, V102, V105, V107, V109 to V111. -/
theorem test_decode_reserved :
    [0x00000000#32, 0x0FFFFFFF#32, 0x10020000#32, 0x18000000#32, 0x20010000#32, 0x30000001#32, 0x40000100#32,
      0x50000001#32, 0x7FFFFFFF#32, 0x80000001#32, 0xA0000000#32, 0xB0000000#32, 0xBFFFFFFF#32].map decodeOp =
    List.replicate 13 (.error .reservedEncoding) := by decide

/-- The command rows of 30_encoding.md R90 and R91 that have no operand. -/
theorem test_decode_commands :
    [0b00000000#8, 0b00000001#8, 0b00000010#8, 0b00000011#8, 0b00000100#8, 0b00000101#8, 0b00000110#8,
      0b00000111#8].map decodeCommand =
    [.nocmd, .unknown01, .cmdPwrOff, .cmdPwrOn, .briDec, .briInc, .spdDec, .spdInc] := by decide

/-- The command rows with an operand, at the ends of their ranges. -/
theorem test_decode_command_fields :
    [0b00001000#8, 0b00001111#8, 0b00010000#8, 0b00011111#8, 0b00100000#8, 0b00111111#8, 0b01000000#8, 0b01111111#8,
      0b10000000#8, 0b10111111#8, 0b11000000#8, 0b11111111#8].map decodeCommand =
    [.unknown08 0#3, .unknown08 7#3, .selAnim 0#4, .selAnim 15#4, .selColor 0#5, .selColor 31#5, .unknown40 0#6,
      .unknown40 63#6, .setBri 0#6, .setBri 63#6, .setSpd 0#6, .setSpd 63#6] := by decide

/-- 95_test_vectors.md, "Command byte classification": the boundary rows. -/
theorem test_cmd_class :
    [0x13#8, 0x14#8, 0x2F#8, 0x30#8, 0x7F#8, 0x80#8, 0x81#8, 0xBF#8, 0xC0#8].map cmdClass =
    [.selanim 3#4, .unknown, .selcolor 15#5, .unknown, .unknown, .unknown, .setbri 1#6, .setbri 63#6, .setspd 0#6] := by
  decide

/-- 30_encoding.md R93, 45_command_bytes.md R205. -/
theorem test_decode_broadcast :
    decodeBroadcast 0b00000001#8 = .ok .bcastAnimOff ∧ decodeBroadcast 0b00000010#8 = .ok .bcastAnimOn ∧
    decodeBroadcast 0x03#8 = .error .unnamedBroadcast := by decide

/-- The table's first word and a command byte through `decodeTableWord` and a step of the machine. -/
theorem test_table_word :
    decodeTableWord 32 0x40000025 = some (.enq 0x25#8) ∧ decodeTableWord 8 0x13 = some (.selAnim 3#4) := by decide
theorem test_fetch_word : (nextOr base (step (base.withFetchWord 32 0x40000025))).queue.wr = 1#4 := by decide

/-- 30_encoding.md R85, R86: an assembler line, and the length of IRFRAME. -/
theorem test_asm : (Instr.edge .rise 19000#16).asm = some "EDGE RISE, 19000" := by decide
theorem test_irframe_length : (irFrame params 1000#16 0xEF00#16 0x45#8).length = 68 := by decide +kernel

/-! ## Single steps -/

/-- V2, V7's wrap as R103's example, V11, V21, V34 (FRAME_READY and ACC), V33 (the old bit is replaced). -/
theorem test_edge_accepts :
    (after (.edge .rise 4500#16) (decAt 0#7)).dec.pos = 1#7 ∧
    (after (.edge .rise 3464#16) { base with dec := { IrDecoder.reset with baseline := 60000#16 } }).dec.raw[0] = 9000#16 ∧
    (after (.edge .fall 3375#16) (leadWith 2#3 false 0#16 0#8)).dec.pos = 2#7 ∧
    (after (.edge .rise 282#16) (decAt 2#7)).dec.pos = 3#7 ∧
    (after (.edge .fall 1687#16) (decAt 65#7)).dec.acc = 0x80000000#32 ∧
    (after (.edge .fall 562#16) { base with dec := { IrDecoder.reset with pos := 17#7, acc := 0xFFFFFFFF#32 } }).dec.acc =
      0xFFFFFF7F#32 := by decide

/-- V1, V14, V15, V20, V31 and V9 (a repeat's record), V16 (none when suppressed). -/
theorem test_edge_rejects_and_repeats :
    (after (.edge .rise 4499#16) (decAt 0#7)).dec.pos = 0#7 ∧
    (after (.edge .rise 4500#16) (decAt 1#7)).dec.pos = 0#7 ∧
    (after (.edge .rise 9000#16) (decAt 1#7)).dec.pos = 0#7 ∧
    (after (.edge .rise 281#16) (decAt 2#7)).dec.pos = 0#7 ∧
    (after (.edge .fall 2532#16) (decAt 3#7)).dec.pos = 0#7 ∧
    (after (.edge .fall 1125#16) (leadWith 2#3 true 0xEF00#16 0x45#8)).ports.irOut =
      [⟨.repeated, 0xEF00#16, 0x45#8⟩] ∧
    (after (.edge .fall 2250#16) (leadWith 4#3 true 0xEF00#16 0x45#8)).ports.irOut = [] := by decide

/-- V59 and V61's first word. -/
theorem test_bg_tick :
    (after (.bgTick 20500#16) { base with dec := { IrDecoder.reset with pos := 41#7, repeatCnt := 3#3 } }).dec.repeatCnt = 4#3 ∧
    (after (.bgTick 100#16) (frameWith 0xBA45EF00#32)).dec.frameReady = true := by decide

/-- V63, V64, V65: emitted, checksum invalid, foreign. -/
theorem test_deframe :
    (after .deframe (frameWith 0xBA45EF00#32)).ports.irOut = [⟨.frame, 0xEF00#16, 0x45#8⟩] ∧
    (after .deframe (frameWith 0xBB45EF00#32)).dec.lastValid = false ∧
    (after .deframe (frameWith 0xF8071234#32)).ports.irOut = [] ∧
    (after .deframe (frameWith 0xF8071234#32)).dec.lastAddr = 0x1234#16 := by decide

/-- V73 and V75. -/
theorem test_enq :
    (after (.enq 0x81#8) (queueAt 15#4 15#4)).queue.wr = 0#4 ∧
    (after (.enq 0x33#8) (queueAt 0#4 1#4)).queue.wr = 0#4 := by decide

/-- V74 and V71. -/
theorem test_deq :
    (after .deq (queueAt 0#4 15#4)).ports.results = [.byte 0x8F#8] ∧
    (after .deq (queueAt 0#4 0#4)).ports.results = [.byte 0x00#8] := by decide

/-- V78's first word. -/
theorem test_out_write : (after (.outWrite 1#10 2#10 0#10) base).out.pend = ⟨1#10, 2#10, 0#10⟩ := by decide +kernel

/-- V78's second word, and V82's saturation. -/
theorem test_rollover :
    (after .rollover (outWith ⟨1#10, 2#10, 0#10⟩ (Rgb.all 0#10) (Rgb.all false) true 0)).out.chEn =
      ⟨false, true, false⟩ ∧
    (after .rollover (outWith (Rgb.all 0#10) (Rgb.all 0#10) (Rgb.all false) true 255)).out.ticks = 255 := by decide

/-- X8's row of R172. -/
theorem test_drain :
    (after .drain (outWith (Rgb.all 0#10) (Rgb.all 0#10) (Rgb.all false) true 3)).ports.results = [.count 3] := by decide

/-- V84 and V85: the enables go dark and stay dark after PWR_ON. -/
theorem test_pwr_off :
    (after .pwrOff (outWith (Rgb.all 9#10) (Rgb.all 9#10) (Rgb.all true) true 0)).out =
      ⟨Rgb.all 9#10, Rgb.all 9#10, Rgb.all false, false, 0⟩ := by decide
theorem test_pwr_on :
    (after .pwrOn (outWith (Rgb.all 9#10) (Rgb.all 9#10) (Rgb.all false) false 0)).out.chEn = Rgb.all false := by decide

/-- 95_test_vectors.md, "Consumer examples", in its order. -/
theorem test_nocmd : (after .nocmd base).node = base.node := by decide
theorem test_cmd_pwr_off : (after .cmdPwrOff base).node.isOn = false ∧ (after .cmdPwrOff base).out.genRun = false := by
  decide
theorem test_cmd_pwr_on :
    (after .cmdPwrOn (after .cmdPwrOff base)).node.isOn = true ∧
    (after .cmdPwrOn (after .cmdPwrOff base)).out.genRun = true := by decide
theorem test_bri_dec :
    (after .briDec base).node.brightness = 62 ∧ (after .briDec (after (.setBri 1#6) base)).node.brightness = 1 := by
  decide
theorem test_bri_inc : (after .briInc base).node.brightness = 63 := by decide
theorem test_spd_dec :
    (after .spdDec base).node.speed = 6 ∧ (after .spdDec (after (.setSpd 0#6) base)).node.speed = 0 := by decide
theorem test_spd_inc :
    (after .spdInc base).node.speed = 8 ∧ (after .spdInc (after (.setSpd 63#6) base)).node.speed = 63 := by decide
theorem test_sel_anim :
    (after (.selAnim 3#4) base).node.anim = ⟨0, 0, 1⟩ ∧
    (after (.selAnim 3#4) base).node.activeAnim = ⟨.smooth, true⟩ ∧
    (after (.selAnim 4#4) base).node = base.node := by decide
theorem test_sel_color :
    (after (.selColor 2#5) { base with node := { Node.reset with brightness := 31 } }).out.pend =
      ⟨503#10, 0#10, 0#10⟩ ∧
    (after (.selColor 16#5) base).node = base.node := by decide +kernel
theorem test_set_bri :
    (after (.setBri 31#6) base).node.brightness = 31 ∧ (after (.setBri 0#6) base).node.brightness = 63 := by decide
theorem test_set_spd : (after (.setSpd 7#6) { base with node := { Node.reset with speed := 0 } }).node.speed = 7 := by
  decide
theorem test_unknown01 : (after .unknown01 base).node = base.node := by decide
theorem test_unknown08 : (after (.unknown08 7#3) base).node = base.node := by decide
theorem test_unknown40 : (after (.unknown40 1#6) base).node = base.node := by decide
theorem test_bcast_on : (after .bcastAnimOn base).node.masterAnimated = true := by decide
theorem test_bcast_off : (after .bcastAnimOff (after .bcastAnimOn base)).node.masterAnimated = false := by decide

/-! ## Witnesses: the hypotheses of each obligation that has any, met by concrete values -/

theorem witness_EncodeOfDecodeIsTheWord :
    decode (.op 0x10014A38#32) = .ok (.edge .rise 19000#16) ∧ decode (.command 0x13#8) = .ok (.selAnim 3#4) ∧
    decode (.broadcast 0x02#8) = .ok .bcastAnimOn := by decide

theorem witness_NoWordFitsTwoTableRows :
    (Instr.edge .rise 0#16).row.fits (.op 0x10014A38#32) = true ∧
    (Instr.edge .fall 5#16).row.fits (.op 0x10014A38#32) = true := by decide

theorem witness_DecodeFollowsTheTableRows :
    decode (.op 0x10014A38#32) = .ok (.edge .rise 19000#16) ∧
    (Instr.edge .fall 5#16).row.fits (.op 0x10014A38#32) = true := by decide

/-- `base` at a presented ENQ 0x25. -/
def atEnq : State := asking base [.present (.op 0x40000025#32)]

theorem witness_StepRunsTheDecodedInstruction :
    atEnq.refusedMark = false ∧ atEnq.pending = .present (.op 0x40000025#32) :: [] ∧
    decode (.op 0x40000025#32) = .ok (.enq 0x25#8) := by decide

/-- A trace with a mapped record, an unmapped record, a dequeued byte and a count. -/
def traced : State :=
  { base with ports := ⟨[⟨.frame, 0xEF00#16, 0x45#8⟩, ⟨.frame, 0xEF00#16, 0x46#8⟩], [.byte 0x22#8, .count 3], []⟩ }

theorem witness_BoundaryRequests_mapped :
    (asking traced [.routeRecord 0]).refusedMark = false ∧
    (asking traced [.routeRecord 0]).pending = .routeRecord 0 :: [] ∧
    (asking traced [.routeRecord 0]).ports.irOut[0]? = some ⟨.frame, 0xEF00#16, 0x45#8⟩ ∧
    (asking traced [.routeRecord 0]).params.keymapByte 0xEF00#16 0x45#8
      (asking traced [.routeRecord 0]).node.masterAnimated = some 0x05#8 := by decide
theorem witness_BoundaryRequests_unmapped :
    (asking traced [.routeRecord 1]).pending = .routeRecord 1 :: [] ∧
    (asking traced [.routeRecord 1]).ports.irOut[1]? = some ⟨.frame, 0xEF00#16, 0x46#8⟩ ∧
    (asking traced [.routeRecord 1]).params.keymapByte 0xEF00#16 0x46#8
      (asking traced [.routeRecord 1]).node.masterAnimated = none := by decide
theorem witness_BoundaryRequests_dispatched :
    (asking traced [.dispatchResult 0]).pending = .dispatchResult 0 :: [] ∧
    (asking traced [.dispatchResult 0]).ports.results[0]? = some (.byte 0x22#8) := by decide

theorem witness_ReservedWordSetsTheRefusedMark :
    (asking base [.present (.op 0#32)]).refusedMark = false ∧
    (asking base [.present (.op 0#32)]).pending = .present (.op 0#32) :: [] ∧
    decodeOp 0#32 = .error .reservedEncoding ∧ ({ base with refusedMark := true } : State).refusedMark = true := by
  decide

theorem witness_OnlyReservedWordsSetTheRefusedMark :
    step (asking base [.present (.op 0#32)]) =
      .next { asking base [.present (.op 0#32)] with refusedMark := true } := rfl

theorem witness_NoRequestNoChange : base.refusedMark = false ∧ base.pending = [] := by decide

theorem witness_OtherBusWritesChangeNothing :
    ∀ b ∈ [0x00#8, 0x03#8, 0xFF#8],
      (asking base [.present (.broadcast b)]).refusedMark = false ∧
      (asking base [.present (.broadcast b)]).pending = .present (.broadcast b) :: [] ∧ b ≠ 0x01#8 ∧ b ≠ 0x02#8 := by
  intro b hb
  refine ⟨rfl, rfl, ?_, ?_⟩ <;> rintro rfl <;> simp at hb

theorem witness_InstructionsHaveAStepExactlyWhenGuarded :
    isNext (exec .deframe (frameWith 0#32)) = true ∧ base.dec.frameReady = false ∧
    (outWith (Rgb.all 0#10) (Rgb.all 0#10) (Rgb.all false) false 0).out.genRun = false := by decide

theorem witness_WindowsAtTheDefaultUnit : params.tUnitX2 = 1125 := rfl

theorem witness_EdgeIsDroppedWhileAFrameWaits : (frameWith 0#32).dec.frameReady = true := rfl

theorem witness_EdgeAtTheStartPosition : (decAt 0#7).dec.frameReady = false ∧ (decAt 0#7).dec.pos = 0#7 := by decide
theorem witness_EdgeAtTheLeadPausePosition : (decAt 1#7).dec.frameReady = false ∧ (decAt 1#7).dec.pos = 1#7 := by decide
theorem witness_EdgeAtABitPulsePosition :
    (0 < 32 ∧ (decAt 2#7).dec.frameReady = false ∧ (decAt 2#7).dec.pos = BitVec.ofNat 7 (2 + 2 * 0)) ∧
    (31 < 32 ∧ (decAt 64#7).dec.frameReady = false ∧ (decAt 64#7).dec.pos = BitVec.ofNat 7 (2 + 2 * 31)) := by decide
theorem witness_EdgeAtABitPausePosition :
    (0 < 32 ∧ (decAt 3#7).dec.frameReady = false ∧ (decAt 3#7).dec.pos = BitVec.ofNat 7 (3 + 2 * 0)) ∧
    (31 < 32 ∧ (decAt 65#7).dec.frameReady = false ∧ (decAt 65#7).dec.pos = BitVec.ofNat 7 (3 + 2 * 31)) := by decide

theorem witness_DeframeConsumesTheFrame :
    (frameWith 0xBA45EF00#32).dec.frameReady = true ∧
    ∀ j < 8, (0x00#8).getLsbD j = (frameWith 0xBA45EF00#32).dec.acc.getLsbD j ∧
      (0xEF#8).getLsbD j = (frameWith 0xBA45EF00#32).dec.acc.getLsbD (8 + j) ∧
      (0x45#8).getLsbD j = (frameWith 0xBA45EF00#32).dec.acc.getLsbD (16 + j) ∧
      (0xBA#8).getLsbD j = (frameWith 0xBA45EF00#32).dec.acc.getLsbD (24 + j) := by decide

/-- The durations of a frame whose data bits are all 0, cut after `n` of them. -/
def zeros (n : Nat) : List Micros := (9000#16 :: 4500#16 :: List.replicate 64 562#16).take n

theorem zeros_accepted (n p : Nat) (d : Micros) (h : (zeros n)[p]? = some d) : roleAccepts params p d = true := by
  have key : ∀ p : Fin 66, roleAccepts params p.val
      ((9000#16 :: 4500#16 :: List.replicate 64 562#16 : List Micros)[p.val]?.getD 0#16) = true := by decide +kernel
  unfold zeros at h
  obtain ⟨hl, hv⟩ := List.getElem?_eq_some_iff.mp h
  have hp : p < 66 := by simp at hl; omega
  have e := key ⟨p, hp⟩
  rw [List.getElem_take] at hv
  rwa [List.getElem?_eq_getElem (by simpa using hp), Option.getD_some, hv] at e

theorem witness_AcceptedDurationsCompleteAFrame :
    base.dec.frameReady = false ∧ base.dec.pos = 0#7 ∧ (zeros 66).length = 66 ∧
    ∀ p d, (zeros 66)[p]? = some d → roleAccepts base.params p d = true :=
  ⟨rfl, rfl, by decide, fun p d h => zeros_accepted 66 p d h⟩

/-- The shortest and the longest train, with a duration that no bit accepts. -/
theorem witness_ARejectedDurationAbortsTheFrame :
    (∀ n ∈ [2, 65], (zeros n).length = n ∧ 2 ≤ n ∧ n < 66 ∧ roleAccepts base.params n 9000#16 = false) ∧
    ∀ n p d, (zeros n)[p]? = some d → roleAccepts base.params p d = true :=
  ⟨by decide +kernel, fun n p d h => zeros_accepted n p d h⟩

theorem witness_RepeatIsHonouredForThreeTicks :
    let s := { base with dec := { IrDecoder.reset with repeatCnt := 0#3, lastValid := true, lastAddr := 0xEF00#16 } }
    s.dec.frameReady = false ∧ s.dec.pos = 0#7 ∧ s.dec.repeatCnt = 0#3 ∧ s.dec.lastValid = true ∧
    s.dec.lastAddr = s.params.acceptedAddress ∧ isStartPulse s.params 9000#16 = true ∧
    isLeadPause s.params 2250#16 = true ∧ isRepeatPause s.params 2250#16 = true := by decide

theorem witness_AWaitingFrameIsNotWritten :
    (frameWith 0xBA45EF00#32).dec.frameReady = true ∧
    exec .deframe (frameWith 0xBA45EF00#32) = .next (after .deframe (frameWith 0xBA45EF00#32)) :=
  ⟨rfl, exec_after (by decide)⟩

theorem witness_LastFrameStaysValid :
    step (asking (leadWith 0#3 true 0xEF00#16 0x45#8) [.present (.op 0x20000000#32)]) =
      .next (nextOr base (step (asking (leadWith 0#3 true 0xEF00#16 0x45#8) [.present (.op 0x20000000#32)]))) ∧
    (leadWith 0#3 true 0xEF00#16 0x45#8).dec.lastValid = true := ⟨rfl, rfl⟩

theorem witness_RawIsNeverRead :
    exec .deframe (frameWith 0#32) = .next (after .deframe (frameWith 0#32)) ∧
    exec .deframe base = .fault .noStepFrameNotReady := ⟨exec_after (by decide), rfl⟩

theorem witness_DecoderIgnoresTheOtherUnits :
    base.params = (queueAt 3#4 1#4).params ∧ base.dec = (queueAt 3#4 1#4).dec ∧
    exec (.bgTick 5#16) base = .next (after (.bgTick 5#16) base) ∧
    exec (.bgTick 5#16) (queueAt 3#4 1#4) = .next (after (.bgTick 5#16) (queueAt 3#4 1#4)) := ⟨rfl, rfl, rfl, rfl⟩

theorem witness_OverflowKeepsTheFirstFifteen :
    base.queue.wr = base.queue.rd ∧
    runInstrs ([0x81#8, 0x82#8].map Instr.enq) base = .next (after (.enq 0x82#8) (after (.enq 0x81#8) base)) :=
  ⟨rfl, rfl⟩

theorem witness_OutputMappingIsMonotonic : step base = .next base := rfl

theorem witness_RolloverCommitsThePendingTriple : base.out.genRun = true := rfl

/-- A lit stage, a stage whose channel is disabled, a halted stage. -/
theorem witness_LinesAreActiveForTheCommittedCounts :
    let lit := (outWith (Rgb.all 9#10) (Rgb.all 9#10) ⟨true, false, true⟩ true 0).out
    let halted := (outWith (Rgb.all 9#10) (Rgb.all 9#10) (Rgb.all false) false 0).out
    (lit.chEn.get .red = true ∧ lit.genRun = true) ∧ lit.chEn.get .green = false ∧ halted.genRun = false := by decide

/-- A lit stage at a presented ROLLOVER, and at a presented PWR_OFF. -/
def lit : State := outWith (Rgb.all 0#10) (Rgb.all 9#10) (Rgb.all true) true 0

theorem witness_CommittedDutiesChangeOnlyAtRollover :
    isNext (step (asking lit [.present (.op 0x60000000#32)])) = true ∧
    (nextOr base (step (asking lit [.present (.op 0x60000000#32)]))).out.comm ≠ lit.out.comm ∧
    isNext (step (asking lit [.present (.op 0x80000000#32)])) = true ∧
    (nextOr base (step (asking lit [.present (.op 0x80000000#32)]))).out.chEn ≠ lit.out.chEn := by decide

theorem litInv : OutputInv lit.params lit.out :=
  ⟨fun h => absurd h (by decide), fun c _ => by cases c <;> decide, by decide⟩

/-- `lit` after OUT_WRITE 1, 2, 0 and a BG_TICK. -/
def dimmed : State := after (.bgTick 5#16) (after (.outWrite 1#10 2#10 0#10) lit)

theorem witness_DisabledAtTheBoundaryNeverBefore :
    OutputInv lit.params lit.out ∧
    (∀ i ∈ [Instr.bgTick 5#16], i ≠ .rollover ∧ i ≠ .pwrOff ∧ i ≠ .cmdPwrOff ∧ (∀ r g b, i ≠ .outWrite r g b) ∧
      ∀ n, i ≠ .selColor n) ∧
    runInstrs [.outWrite 1#10 2#10 0#10, .bgTick 5#16] lit = .next dimmed ∧
    exec .rollover dimmed = .next (after .rollover dimmed) ∧
    (lit.params.gamma ((⟨1#10, 2#10, 0#10⟩ : Rgb Level).get .red)).toNat < 2 :=
  ⟨litInv, by simp, rfl, rfl, by decide +kernel⟩

theorem witness_LinesStayDarkFromPowerOffToRollover :
    Instr.rollover ∉ [Instr.pwrOn, .outWrite 9#10 9#10 9#10] ∧
    isNext (runInstrs [.pwrOff, .pwrOn, .outWrite 9#10 9#10 9#10] lit) = true := by decide

theorem witness_NoTickIsLostBelowSaturation :
    lit.out.ticks ≤ lit.params.tickSatMax ∧ isNext (runInstrs [.rollover, .drain, .rollover] lit) = true := by decide

theorem witness_SelAnimSelectsAnAnimation :
    (0#4).toNat < 4 ∧ (3#4).toNat < 4 ∧ 3 < (4#4).toNat ∧ 3 < (15#4).toNat := by decide

theorem witness_SelColorWritesTheScaledColor :
    ((0#5).toNat < 16 ∧ (15#5).toNat < 16 ∧ base.node.brightness ≤ 63) ∧ 15 < (16#5).toNat ∧ 15 < (31#5).toNat := by
  decide

theorem witness_BytesOfNoClassDoNothing :
    cmdClass 0x00#8 = .nocmd ∧ [0x01#8, 0x14#8, 0x30#8, 0x41#8, 0x80#8].map cmdClass = List.replicate 5 .unknown := by
  decide

theorem witness_IsOnGatesNothing : Instr.briDec ≠ .cmdPwrOff ∧ Instr.briDec ≠ .cmdPwrOn := by decide

theorem witness_OnlyTheNamedOperationsWrite :
    exec .rollover lit = .next (after .rollover lit) ∧ (after .rollover lit).out.comm ≠ lit.out.comm :=
  ⟨rfl, by decide⟩

theorem witness_TracesOnlyGrow :
    step atEnq = .next (nextOr base (step atEnq)) ∧ Performs atEnq (.enq 0x25#8) :=
  ⟨rfl, rfl, .present (.op 0x40000025#32), [], rfl, by decide⟩

theorem gamma_test (v : Level) : params.gamma v = v := by
  simp [Params.gamma, params, table]

theorem witness_StepKeepsTheInvariant : Inv atEnq ∧ step atEnq = .next (nextOr base (step atEnq)) := by
  refine ⟨⟨⟨by decide, by decide, fun i j h => by rw [show atEnq.params = params from rfl, gamma_test, gamma_test]; exact h⟩,
    ?_, ?_, ?_, ?_⟩, rfl⟩
  · constructor <;> simp [atEnq, asking, base, IrDecoder.reset, State.reset, IrDecoder.filled]
  · constructor <;> simp [atEnq, asking, base, OutputStage.reset, State.reset, Rgb.all, Rgb.get]
    intro c; cases c <;> simp
  · constructor <;> simp [atEnq, asking, base, Node.reset, State.reset]
  · constructor <;> simp [atEnq, asking, base, State.reset]

end Sys2Proof.Tests
end

section
/-! The window tests of 00_scope.md R13: the integer comparisons of the model and the rational bounds they stand for.
Each comparison is its rational bound multiplied by 4, so nothing is rounded. -/

namespace Sys2Proof.Proofs

open Sys2Proof Sys2Proof.Machine

/-- `nom(m)` of R13 in microseconds, with the unit `t` in half-microseconds. -/
def nominal (t m : Nat) : ℚ := (m * t : ℚ) / 2

/-- The scale of the integer tests: a window's lower bound times 4 is the model's product. -/
theorem four_mul_nominal_half (t m : Nat) : 4 * (nominal t m / 2) = ((m * t : Nat) : ℚ) := by
  unfold nominal
  push_cast
  ring

theorem window_lower_iff (t d m : Nat) : m * t ≤ 4 * d ↔ nominal t m / 2 ≤ d := calc
  m * t ≤ 4 * d ↔ 4 * (nominal t m / 2) ≤ 4 * (d : ℚ) := by
    rw [four_mul_nominal_half]
    exact_mod_cast Iff.rfl
  _ ↔ nominal t m / 2 ≤ d := mul_le_mul_iff_right₀ four_pos

theorem window_upper_iff (t d m : Nat) : 4 * d ≤ 3 * m * t ↔ (d : ℚ) ≤ 3 * nominal t m / 2 := calc
  4 * d ≤ 3 * m * t ↔ 4 * (d : ℚ) ≤ 4 * (3 * nominal t m / 2) := by
    rw [mul_div_assoc, mul_left_comm, four_mul_nominal_half, mul_assoc 3 m t]
    exact_mod_cast Iff.rfl
  _ ↔ (d : ℚ) ≤ 3 * nominal t m / 2 := mul_le_mul_iff_right₀ four_pos

theorem midpoint_iff (t d a b : Nat) : 4 * d < (a + b) * t ↔ (d : ℚ) < (nominal t a + nominal t b) / 2 := calc
  4 * d < (a + b) * t ↔ 4 * (d : ℚ) < 4 * ((nominal t a + nominal t b) / 2) := by
    rw [add_div, mul_add, four_mul_nominal_half, four_mul_nominal_half, add_mul]
    exact_mod_cast Iff.rfl
  _ ↔ (d : ℚ) < (nominal t a + nominal t b) / 2 := mul_lt_mul_iff_right₀ four_pos

theorem inSpan_iff (t d lo hi : Nat) :
    inSpan t d lo hi = true ↔ nominal t lo / 2 ≤ d ∧ (d : ℚ) ≤ 3 * nominal t hi / 2 := by
  rw [← window_lower_iff, ← window_upper_iff]
  simp [inSpan]

/-- A window is the span from a multiplier to itself. -/
theorem inWin_eq_inSpan (t d m : Nat) : inWin t d m = inSpan t d m m := rfl

theorem inWin_iff (t d m : Nat) :
    inWin t d m = true ↔ nominal t m / 2 ≤ d ∧ (d : ℚ) ≤ 3 * nominal t m / 2 := by
  rw [inWin_eq_inSpan, inSpan_iff]

theorem belowMid_iff (t d a b : Nat) :
    belowMid t d a b = true ↔ (d : ℚ) < (nominal t a + nominal t b) / 2 := by
  rw [← midpoint_iff]
  simp [belowMid]

/-- Settles O15: each of the three tests is its rational bound times 4. -/
theorem windowsAreTheRationalOnes : Obligations.WindowsAreTheRationalOnes := by
  intro t d m lo hi
  exact ⟨inWin_iff t d m, inSpan_iff t d lo hi, belowMid_iff t d lo hi⟩

end Sys2Proof.Proofs
end

section
/-! EDGE, BG_TICK and DEFRAME in a given state (40_ir_decoder.md R103 to R123): the decoder's answer at each position
as one equation, and from it the machine's next state, written out field by field. -/

namespace Sys2Proof.Proofs

open Sys2Proof Sys2Proof.Machine

/-! ## The tests of an edge, as the integer comparisons of 00_scope.md R13 -/

theorem isPulse_iff (P : Params) (p : Polarity) : isPulse P p = true ↔ p = P.pulseEndEdge := by
  simp [isPulse]

theorem inSpan_iff_le (t d lo hi : Nat) : inSpan t d lo hi = true ↔ lo * t ≤ 4 * d ∧ 4 * d ≤ 3 * hi * t := by
  simp [inSpan]

theorem isStartPulse_iff (P : Params) (d : Micros) :
    isStartPulse P d = true ↔ 16 * P.tUnitX2 ≤ 4 * d.toNat ∧ 4 * d.toNat ≤ 3 * 16 * P.tUnitX2 :=
  inSpan_iff_le ..

theorem isLeadPause_iff (P : Params) (d : Micros) :
    isLeadPause P d = true ↔ 4 * P.tUnitX2 ≤ 4 * d.toNat ∧ 4 * d.toNat ≤ 3 * 8 * P.tUnitX2 :=
  inSpan_iff_le ..

theorem isRepeatPause_iff (P : Params) (d : Micros) :
    isRepeatPause P d = true ↔ 4 * d.toNat < (4 + 8) * P.tUnitX2 := by
  simp [isRepeatPause, belowMid, Config.mRepeatPause, Config.mStartPause]

theorem isBitPulse_iff (P : Params) (d : Micros) :
    isBitPulse P d = true ↔ 1 * P.tUnitX2 ≤ 4 * d.toNat ∧ 4 * d.toNat ≤ 3 * 1 * P.tUnitX2 :=
  inSpan_iff_le ..

theorem isBitPause_iff (P : Params) (d : Micros) :
    isBitPause P d = true ↔ 1 * P.tUnitX2 ≤ 4 * d.toNat ∧ 4 * d.toNat ≤ 3 * 3 * P.tUnitX2 :=
  inSpan_iff_le ..

theorem pauseBit_eq (P : Params) (d : Micros) : pauseBit P d = decide ((1 + 3) * P.tUnitX2 ≤ 4 * d.toNat) := by
  simp [pauseBit, belowMid, Config.mBit0Pause, Config.mBit1Pause, ← decide_not]

/-! ## EDGE on the decoder, position by position -/

theorem phaseOf_bitPulse {k : Nat} (hk : k < 32) : phaseOf (2 + 2 * k) = .awaitingBitPulse k := by
  rw [phaseOf, if_neg (by omega), if_neg (by omega), if_neg (by omega), if_pos (by omega)]
  congr
  omega

theorem phaseOf_bitPause {k : Nat} (hk : k < 32) : phaseOf (3 + 2 * k) = .awaitingBitPause k := by
  rw [phaseOf, if_neg (by omega), if_neg (by omega), if_neg (by omega), if_neg (by omega)]
  congr
  omega

section Edge
variable {P : Params} {p : Polarity} {ts : Micros} {x : IrDecoder}

/-- A waiting frame drops the edge (40_ir_decoder.md R111). -/
theorem edge_while_frameReady (hr : x.frameReady = true) :
    x.edge P p ts = ({ x with baseline := ts }, none) := by
  simp [IrDecoder.edge, hr]

theorem edge_of_not_frameReady (hr : x.frameReady = false) :
    x.edge P p ts = { x with baseline := ts }.classify P (isPulse P p) (duration ts x.baseline) := by
  simp [IrDecoder.edge, hr]

/-- Position 0 (40_ir_decoder.md R104): no abort, as POS is 0 already. -/
theorem edge_at_start (hr : x.frameReady = false) (hpos : x.pos.toNat = 0) :
    x.edge P p ts = (if isPulse P p ∧ isStartPulse P (duration ts x.baseline)
      then { x with baseline := ts }.accept 0 (duration ts x.baseline) 1#7
      else { x with baseline := ts }, none) := by
  simp [edge_of_not_frameReady hr, IrDecoder.classify, hpos, phaseOf, IrDecoder.edgeAtStart]

/-- Position 1 (40_ir_decoder.md R105, R106, R113). -/
theorem edge_at_lead (hr : x.frameReady = false) (hpos : x.pos.toNat = 1) :
    x.edge P p ts =
      if ¬ isPulse P p ∧ isLeadPause P (duration ts x.baseline) then
        if isRepeatPause P (duration ts x.baseline) then
          if x.repeatCnt.toNat < 4 then
            ({ { x with baseline := ts }.accept 1 (duration ts x.baseline) 0#7 with repeatCnt := 0#3 },
              x.repeatRecord P)
          else ({ x with baseline := ts }.accept 1 (duration ts x.baseline) 0#7, none)
        else ({ x with baseline := ts }.accept 1 (duration ts x.baseline) 2#7, none)
      else ({ x with baseline := ts }.abort, none) := by
  simp [edge_of_not_frameReady hr, IrDecoder.classify, hpos, phaseOf, IrDecoder.edgeAtLead, Config.repeatCap,
    IrDecoder.repeatRecord]

/-- Position 2 + 2k (40_ir_decoder.md R107, R109). -/
theorem edge_at_bitPulse {k : Nat} (hk : k < 32) (hr : x.frameReady = false) (hpos : x.pos.toNat = 2 + 2 * k) :
    x.edge P p ts = (if isPulse P p ∧ isBitPulse P (duration ts x.baseline)
      then { x with baseline := ts }.accept (2 + 2 * k) (duration ts x.baseline) (BitVec.ofNat 7 (3 + 2 * k))
      else { x with baseline := ts }.abort, none) := by
  have hnext : 3 + 2 * k = 2 + 2 * k + 1 := by omega
  simp [edge_of_not_frameReady hr, IrDecoder.classify, hpos, phaseOf_bitPulse hk, IrDecoder.edgeAtBitPulse,
    pos_succ hpos, hnext]

/-- Position 3 + 2k (40_ir_decoder.md R108 to R110), which for k = 31 is the last one. -/
theorem edge_at_bitPause {k : Nat} (hk : k < 32) (hr : x.frameReady = false) (hpos : x.pos.toNat = 3 + 2 * k) :
    x.edge P p ts = (if ¬ isPulse P p ∧ isBitPause P (duration ts x.baseline)
      then { { x with baseline := ts }.accept (3 + 2 * k) (duration ts x.baseline) (BitVec.ofNat 7 (4 + 2 * k)) with
        acc := setAccBit x.acc k (pauseBit P (duration ts x.baseline)), frameReady := decide (k = 31) }
      else { x with baseline := ts }.abort, none) := by
  have hnext : 4 + 2 * k = 3 + 2 * k + 1 := by omega
  have hlast : (x.pos == 65#7) = decide (k = 31) := by
    rw [Bool.eq_iff_iff, beq_iff_eq, decide_eq_true_iff, pos_eq_ofNat (by omega), hpos]
    omega
  simp [edge_of_not_frameReady hr, IrDecoder.classify, hpos, phaseOf_bitPause hk, IrDecoder.edgeAtBitPause,
    pos_succ hpos, hnext, hr, hlast]

end Edge

/-! ## EDGE on the machine -/

/-- An accepted duration lands in RAW, at an index below its length (20_memory.md R51). -/
theorem raw_set_eq (v : Vector Micros 66) {i : Nat} (hi : i < 66) (d : Micros) :
    v.set i d hi = v.setIfInBounds i d := by
  ext j hj
  simp [Vector.getElem_set, Vector.getElem_setIfInBounds]

theorem repeatRecord_toList (P : Params) (x : IrDecoder) :
    (x.repeatRecord P).toList =
      if x.lastValid = true ∧ x.lastAddr = P.acceptedAddress then [⟨.repeated, x.lastAddr, x.lastCmd⟩] else [] := by
  by_cases h : x.lastValid = true ∧ x.lastAddr = P.acceptedAddress <;> simp [IrDecoder.repeatRecord, h]

/-- Settles O17: the drop is tested before anything but the baseline is written. -/
theorem edgeIsDroppedWhileAFrameWaits : Obligations.EdgeIsDroppedWhileAFrameWaits := by
  intro p ts s hr
  rw [exec_edge_eq (edge_while_frameReady hr), emit_none]

/-- Settles O18: the decoder's answer at position 0, with its tests as integer comparisons. -/
theorem edgeAtTheStartPosition : Obligations.EdgeAtTheStartPosition := by
  intro p ts s hr hpos
  rw [exec_edge_eq (edge_at_start hr (by rw [hpos]; rfl)), emit_none]
  simp only [isPulse_iff, isStartPulse_iff, duration, raw_set_eq]
  split <;> rfl

/-- Settles O19: of the four answers at position 1 only the honoured repeat has a record to emit. -/
theorem edgeAtTheLeadPausePosition : Obligations.EdgeAtTheLeadPausePosition := by
  intro p ts s hr hpos
  rw [exec_edge_eq Prod.mk.eta.symm, edge_at_lead hr (by rw [hpos]; rfl)]
  simp only [isPulse_iff, isLeadPause_iff, isRepeatPause_iff, duration, raw_set_eq, ← repeatRecord_toList]
  split_ifs with accepted short honoured
  case pos => rfl
  all_goals
    rw [emit_none]
    rfl

/-- Settles O20: the decoder's answer at position 2 + 2k, with its tests as integer comparisons. -/
theorem edgeAtABitPulsePosition : Obligations.EdgeAtABitPulsePosition := by
  intro p ts s k hk hr hpos
  rw [exec_edge_eq (edge_at_bitPulse hk hr ((pos_eq_ofNat (by omega)).1 hpos)), emit_none]
  simp only [isPulse_iff, isBitPulse_iff, duration]
  split <;> rfl

/-- Settles O21: the new ACC is `setAccBit` at bit `k`, whatever the event; only an accepted pause stores it. -/
theorem edgeAtABitPausePosition : Obligations.EdgeAtABitPausePosition := by
  intro p ts s k hk hr hpos
  refine ⟨setAccBit s.dec.acc k (pauseBit s.params (ts - s.dec.baseline)), fun j => ?_, ?_⟩
  · rw [setAccBit_getLsbD _ _ _ hk, pauseBit_eq]
  · rw [exec_edge_eq (edge_at_bitPause hk hr ((pos_eq_ofNat (by omega)).1 hpos)), emit_none]
    simp only [isPulse_iff, isBitPause_iff, duration]
    split <;> rfl

/-! ## BG_TICK -/

/-- Settles O22: the model's tick is the rule's pseudocode (R114), lifted to the machine. -/
theorem bgTickAgesTheGateAndResetsThePosition : Obligations.BgTickAgesTheGateAndResetsThePosition := by
  intro ts s
  rfl

/-! ## DEFRAME -/

/-- `ACC_BYTE[j]` is the byte with the bits of ACC from `8 * j` on (10_state.md R28). -/
theorem eq_accByte {acc : BitVec 32} {b : Byte} (j : Nat) (h : ∀ i < 8, b.getLsbD i = acc.getLsbD (8 * j + i)) :
    b = accByte acc j := by
  apply BitVec.eq_of_getLsbD_eq
  intro i hi
  rw [h i hi, accByte, BitVec.getLsbD_extractLsb', decide_eq_true hi, Bool.true_and]

theorem frameRecord_toList (P : Params) (x : IrDecoder) (hv : checksumValid x.acc = true) :
    (x.frameRecord P).toList =
      if frameAddr x.acc = P.acceptedAddress then [⟨.frame, frameAddr x.acc, frameCmd x.acc⟩] else [] := by
  by_cases h : frameAddr x.acc = P.acceptedAddress <;> simp [IrDecoder.frameRecord, hv, h]

theorem frameRecord_of_not_valid (P : Params) (x : IrDecoder) (hv : checksumValid x.acc = false) :
    x.frameRecord P = none := by
  simp [IrDecoder.frameRecord, hv]

theorem checksumValid_iff (acc : BitVec 32) : checksumValid acc = true ↔ accByte acc 2 = ~~~accByte acc 3 := by
  simp [checksumValid]

theorem exec_deframe_eq {s : State} (hr : s.dec.frameReady = true) :
    exec .deframe s = .next (({ s with dec := s.dec.deframe } : State).emit (s.dec.frameRecord s.params)) := by
  simp [exec, execDeframe, hr, State.withDec]

/-- Settles O23: the four bytes are those of ACC, and DEFRAME's two cases are the statement's two branches. -/
theorem deframeConsumesTheFrame : Obligations.DeframeConsumesTheFrame := by
  intro s b0 b1 b2 b3 hr hbits
  simp only [imp_and, forall_and] at hbits
  obtain ⟨h0, h1, h2, h3⟩ := hbits
  obtain rfl := eq_accByte 0 (by simpa using h0)
  obtain rfl := eq_accByte 1 h1
  obtain rfl := eq_accByte 2 h2
  obtain rfl := eq_accByte 3 h3
  rw [exec_deframe_eq hr]
  obtain ⟨valid, e⟩ | ⟨invalid, e⟩ := deframe_cases s.dec
  · rw [if_pos ((checksumValid_iff _).1 valid), e, State.emit, frameRecord_toList _ _ valid]
    rfl
  · have hne : ¬ accByte s.dec.acc 2 = ~~~accByte s.dec.acc 3 := by simp [← checksumValid_iff, invalid]
    rw [if_neg hne, e, frameRecord_of_not_valid _ _ invalid, emit_none]

end Sys2Proof.Proofs
end

section
/-! ENQ and DEQ in a given state (41_command_queue.md R141, R145): the fullness test as a comparison of the indices,
each instruction as the queue's operation lifted to the machine, and from these the next state field by field. -/

namespace Sys2Proof.Proofs

open Sys2Proof Sys2Proof.Machine

/-- One slot always stays free, so 15 held items are a full queue (41_command_queue.md R141). -/
theorem isFull_iff (q : CmdQueue) : q.isFull = true ↔ q.wr + 1#4 = q.rd := by
  simp [CmdQueue.isFull]

theorem exec_enq_eq (b : Byte) (s : State) : exec (.enq b) s = .next (s.withQueue (·.enqueue b)) := rfl

theorem exec_deq_eq (s : State) :
    exec .deq s = .next ((s.withQueue (·.dequeue)).deliver (.byte s.queue.front)) := rfl

/-- Settles O31: ENQ's two cases on the queue are the statement's two branches. -/
theorem enqStoresOrDrops : Obligations.EnqStoresOrDrops := by
  intro b s
  rw [exec_enq_eq, State.withQueue]
  obtain ⟨full, unchanged⟩ | ⟨room, stored⟩ := enqueue_cases b s.queue
  · rw [if_pos ((isFull_iff _).1 full), unchanged]
  · have hne : ¬ s.queue.wr + 1#4 = s.queue.rd := by simp [← isFull_iff, room]
    rw [if_neg hne, stored]

/-- Settles O32: DEQ's two cases on the queue, each with its byte, are the statement's two branches. -/
theorem deqReturnsOrGivesTheSentinel : Obligations.DeqReturnsOrGivesTheSentinel := by
  intro s
  rw [exec_deq_eq, State.withQueue, State.deliver]
  obtain ⟨empty, unchanged, sentinel⟩ | ⟨held, advanced, oldest⟩ := dequeue_cases s.queue
  · rw [if_pos empty, unchanged, sentinel]
  · rw [if_neg held, advanced, oldest, CmdQueue.read]

end Sys2Proof.Proofs
end

section
/-! OUT_WRITE, ROLLOVER, DRAIN, PWR_OFF and PWR_ON in a given state (42_output_stage.md): each instruction as the
output stage's operation lifted to the machine, and from these the next state field by field. -/

namespace Sys2Proof.Proofs

open Sys2Proof Sys2Proof.Machine

/-! ## The instructions as operations of the output stage -/

theorem exec_outWrite_eq (vr vg vb : Level) (s : State) :
    exec (.outWrite vr vg vb) s = .next (s.withOut (·.write s.params ⟨vr, vg, vb⟩)) := rfl

/-- ROLLOVER under its guard (42_output_stage.md R165). -/
theorem exec_rollover_eq {s : State} (running : s.out.genRun = true) :
    exec .rollover s = .next (s.withOut (·.roll s.params)) := by
  simp [exec, execRollover, running]

theorem exec_drain_eq (s : State) :
    exec .drain s = .next ((s.withOut (·.drained)).deliver (.count s.out.ticks)) := rfl

theorem exec_pwrOff_eq (s : State) : exec .pwrOff s = .next (s.withOut (·.halt)) := rfl

theorem exec_pwrOn_eq (s : State) : exec .pwrOn s = .next (s.withOut (·.resume)) := rfl

/-! ## The duties and the enables, channel by channel -/

/-- Each channel is looked up on its own (42_output_stage.md R161, R162). -/
theorem gammaTriple_mk (P : Params) (r g b : Level) :
    gammaTriple P ⟨r, g, b⟩ = ⟨P.gamma r, P.gamma g, P.gamma b⟩ := rfl

/-- The near-zero disable as the comparison with the threshold 2 (42_output_stage.md R167). -/
theorem channelEnable_eq (duty : Level) : channelEnable duty = decide (¬ duty.toNat < 2) := by
  rw [channelEnable, Config.dutyOffThreshold, decide_not]

/-! ## The obligations -/

/-- Settles O36: the pending triple is the gamma table's entry on each channel. -/
theorem outWriteSetsThePendingTriple : Obligations.OutWriteSetsThePendingTriple := by
  intro vr vg vb s
  rw [exec_outWrite_eq, State.withOut, OutputStage.write, gammaTriple_mk]
  simp only [Params.gamma]

/-- Settles O38: the guard selects the step, and each enable is the threshold's comparison on the pending duty. -/
theorem rolloverCommitsThePendingTriple : Obligations.RolloverCommitsThePendingTriple := by
  intro s running
  rw [exec_rollover_eq running, State.withOut, OutputStage.roll, Rgb.map]
  simp only [channelEnable_eq]

/-- Settles O39: the result is taken from the old TICKS, and delivering it touches the ports alone. -/
theorem drainReturnsAndClearsTheTicks : Obligations.DrainReturnsAndClearsTheTicks := by
  intro s
  rw [exec_drain_eq, State.withOut, State.deliver, OutputStage.drained]

/-- Settles O40: halting writes GEN_RUN and the enables, resuming GEN_RUN alone. -/
theorem powerOperationsHaltAndResume : Obligations.PowerOperationsHaltAndResume := by
  intro s
  constructor
  · rw [exec_pwrOff_eq, State.withOut, OutputStage.halt, Rgb.all]
  · rw [exec_pwrOn_eq, State.withOut, OutputStage.resume]

end Sys2Proof.Proofs
end

section
/-! The command and broadcast bytes in a given state (45_command_bytes.md R191 to R204): each instruction as its
update of the consumer's state, and the bytes that do nothing: the rows without an effect, and the rows whose field
holds an undefined value. -/

namespace Sys2Proof.Proofs

open Sys2Proof Sys2Proof.Machine

/-! ## The instructions as updates of the consumer -/

theorem exec_spdDec_eq (s : State) :
    exec .spdDec s = .next (s.withNode fun x => { x with speed := x.speed - 1 }) := rfl

theorem exec_spdInc_eq (s : State) :
    exec .spdInc s = .next (s.withNode fun x => { x with speed := min (x.speed + 1) 63 }) := rfl

theorem exec_setSpd_eq (v : BitVec 6) (s : State) :
    exec (.setSpd v) s = .next (s.withNode fun x => { x with speed := v.toNat }) := rfl

theorem exec_bcastAnimOff_eq (s : State) :
    exec .bcastAnimOff s = .next (s.withNode fun x => { x with masterAnimated := false }) := rfl

theorem exec_bcastAnimOn_eq (s : State) :
    exec .bcastAnimOn s = .next (s.withNode fun x => { x with masterAnimated := true }) := rfl

/-- SELANIM with a defined operand (45_command_bytes.md R198). -/
theorem exec_selAnim_of_lt {n : BitVec 4} (defined : n.toNat < 4) (s : State) :
    exec (.selAnim n) s = .next (s.withNode fun x =>
      { x with
        activeAnim := ⟨animName ⟨n.toNat, defined⟩, smoothFlag s.params ⟨n.toNat, defined⟩⟩
        anim := ⟨0, 0, 1⟩
        mode := .animated }) := by
  rw [exec, execSelAnim, dif_pos defined]

/-- The animation's name, selected by the operand's bits (30_encoding.md R90). -/
theorem animName_toNat {n : BitVec 4} (defined : n.toNat < 4) :
    animName ⟨n.toNat, defined⟩ =
      if n = 0#4 then .flash else if n = 1#4 then .strobe else if n = 2#4 then .fade else .smooth := by
  simp [animName, Fin.ext_iff, BitVec.toNat_eq]

/-! ## Undefined field values -/

/-- "field values it calls undefined" (30_encoding.md R91) make their command a no-op (45_command_bytes.md R198, R199,
R200). -/
theorem exec_of_not_wellFormed {i : Instr} (undefined : i.wellFormed = false) (s : State) :
    exec i s = .next s := by
  cases i with
  | selAnim n =>
    have beyond : ¬ n.toNat < 4 := by simp [Instr.wellFormed] at undefined; omega
    rw [exec, execSelAnim, dif_neg beyond]
  | selColor n =>
    have beyond : ¬ n.toNat < 16 := by simp [Instr.wellFormed] at undefined; omega
    rw [exec, execSelColor, dif_neg beyond]
  | setBri v =>
    have zero : ¬ 1 ≤ v.toNat := of_decide_eq_false undefined
    rw [exec, execSetBri, if_neg zero]
  | _ => cases undefined

/-! ## The class of a byte and of the instruction it decodes to -/

/-- The decoder's rows and the tests of `cmd_class` (30_encoding.md R90, R92) name the same command for each of the
256 bytes, a row with an undefined field value counting as UNKNOWN. -/
theorem cmdClass?_decodeCommand : ∀ b : Byte, (decodeCommand b).cmdClass? = some (cmdClass b) := by decide +kernel

/-- An instruction of class NOCMD or UNKNOWN is a row without an effect or holds an undefined field value
(30_encoding.md R91, R92); either way it does nothing (45_command_bytes.md R191, R202). -/
theorem exec_of_no_class {i : Instr} (noClass : i.cmdClass? = some .unknown ∨ i.cmdClass? = some .nocmd) (s : State) :
    exec i s = .next s := by
  cases i with
  | nocmd | unknown01 | unknown08 _ | unknown40 _ => rfl
  | selAnim _ | selColor _ | setBri _ =>
    exact exec_of_not_wellFormed (by simpa [Instr.cmdClass?, ite_eq_iff] using noClass) s
  | _ => simp [Instr.cmdClass?] at noClass

/-! ## The obligations -/

/-- Settles O48: the lower bound 0 of SPDDEC is where subtraction of naturals stops. -/
theorem speedCommandsSetTheSpeed : Obligations.SpeedCommandsSetTheSpeed := by
  intro v s
  refine ⟨?_, ?_, ?_⟩
  · rw [exec_spdDec_eq, State.withNode, Nat.max_zero]
  · rw [exec_spdInc_eq, State.withNode]
  · rw [exec_setSpd_eq, State.withNode]

/-- Settles O49: the two sides of SELANIM's operand test. -/
theorem selAnimSelectsAnAnimation : Obligations.SelAnimSelectsAnAnimation := by
  intro n s
  constructor
  · intro defined
    rw [exec_selAnim_of_lt defined, State.withNode, animName_toNat defined, smoothFlag]
  · intro beyond
    have undefined : (Instr.selAnim n).wellFormed = false := decide_eq_false (Nat.not_le.2 beyond)
    exact exec_of_not_wellFormed undefined s

/-- Settles O51: the four rows are of class NOCMD or UNKNOWN whatever their free bits are. -/
theorem idleAndUnknownCommandsDoNothing : Obligations.IdleAndUnknownCommandsDoNothing := by
  intro s x y
  exact ⟨exec_of_no_class (.inr rfl) s, exec_of_no_class (.inl rfl) s, exec_of_no_class (.inl rfl) s,
    exec_of_no_class (.inl rfl) s⟩

/-- Settles O52: the byte's class is that of the instruction it decodes to, and no instruction of class NOCMD or
UNKNOWN has an effect. -/
theorem bytesOfNoClassDoNothing : Obligations.BytesOfNoClassDoNothing := by
  intro b s noClass
  refine exec_of_no_class ?_ s
  rwa [cmdClass?_decodeCommand b, Option.some_inj, Option.some_inj]

/-- Settles O53: each broadcast writes the consumer's flag alone. -/
theorem broadcastsSetMasterAnimated : Obligations.BroadcastsSetMasterAnimated := by
  intro s
  constructor
  · rw [exec_bcastAnimOff_eq, State.withNode]
  · rw [exec_bcastAnimOn_eq, State.withNode]

end Sys2Proof.Proofs
end

section
/-! The encoding tables (30_encoding.md R70 to R94): the fields of an operation word, the decoder's answer from its
fields, and from these both directions of the round trip and the agreement with the rows of spec/opcode_table.json. The
256 bytes of a byte channel are checked one by one. -/

namespace Sys2Proof.Proofs

open Sys2Proof Sys2Proof.Machine Sys2Proof.Laws

/-! ## Fields of a word -/

theorem eq_append_iff {m n : Nat} {w : BitVec (m + n)} {a : BitVec m} {b : BitVec n} :
    w = a ++ b ↔ w.extractLsb' n m = a ∧ w.extractLsb' 0 n = b := by
  constructor
  · rintro rfl
    exact ⟨BitVec.extractLsb'_append_eq_left, BitVec.extractLsb'_append_eq_right⟩
  · rintro ⟨rfl, rfl⟩
    exact BitVec.extractLsb'_append_extractLsb'.symm

/-- A field inside a field. -/
theorem extractLsb'_extractLsb' {k : Nat} (w : BitVec k) (lo len at_ size : Nat) (h : at_ + size ≤ len) :
    (w.extractLsb' lo len).extractLsb' at_ size = w.extractLsb' (lo + at_) size := by
  ext i hi
  have inside : at_ + i < len := by omega
  simp [inside, Nat.add_assoc]

/-- A field that a row's mask covers holds the bits of the row's value. -/
theorem field_of_masked {w mask value : BitVec 32} (h : w &&& mask = value) (lo len : Nat)
    (covered : mask.extractLsb' lo len = BitVec.allOnes len) : w.extractLsb' lo len = value.extractLsb' lo len := by
  rw [← h, BitVec.extractLsb'_and, covered, BitVec.and_allOnes]

/-! ## The words with operands, field by field (30_encoding.md R73, R74, R76, R80) -/

/-- Two fields side by side, as the encoder writes them. -/
theorem shiftLeft_or_eq_append {m n k : Nat} (x : BitVec m) (y : BitVec n) :
    x.setWidth k <<< n ||| y.setWidth k = (x ++ y).setWidth k := by
  apply BitVec.eq_of_getLsbD_eq
  intro i hi
  simp only [BitVec.getLsbD_or, BitVec.getLsbD_shiftLeft, BitVec.getLsbD_setWidth, BitVec.getLsbD_append]
  by_cases low : i < n
  · simp [low, hi]
  · simp [low, hi, BitVec.getLsbD_of_ge y i (by omega), show i - n < k by omega]

theorem eq_edgeWord_iff {w : OpWord} {b : BitVec 1} {ts : Micros} :
    w = 0x10000000#32 ||| b.setWidth 32 <<< 16 ||| ts.setWidth 32 ↔
      w.extractLsb' 28 4 = 0x1#4 ∧ w.extractLsb' 17 11 = 0#11 ∧ w.extractLsb' 16 1 = b ∧ w.extractLsb' 0 16 = ts := by
  have fields : 0x10000000#32 ||| b.setWidth 32 <<< 16 ||| ts.setWidth 32 = (0x1#4 ++ 0#11) ++ (b ++ ts) := by
    rw [BitVec.or_assoc, shiftLeft_or_eq_append,
      show 0x10000000#32 = (0x1#4 ++ 0#11).setWidth 32 <<< 17 from rfl, shiftLeft_or_eq_append,
      BitVec.setWidth_eq]
  rw [fields, eq_append_iff (m := 15) (n := 17), eq_append_iff (m := 4) (n := 11), eq_append_iff (m := 1) (n := 16)]
  simp [extractLsb'_extractLsb', and_assoc]

theorem eq_bgTickWord_iff {w : OpWord} {ts : Micros} :
    w = 0x20000000#32 ||| ts.setWidth 32 ↔
      w.extractLsb' 28 4 = 0x2#4 ∧ w.extractLsb' 16 12 = 0#12 ∧ w.extractLsb' 0 16 = ts := by
  have fields : 0x20000000#32 ||| ts.setWidth 32 = (0x2#4 ++ 0#12) ++ ts := by
    rw [show 0x20000000#32 = (0x2#4 ++ 0#12).setWidth 32 <<< 16 from rfl, shiftLeft_or_eq_append,
      BitVec.setWidth_eq]
  rw [fields, eq_append_iff (m := 16) (n := 16), eq_append_iff (m := 4) (n := 12)]
  simp [extractLsb'_extractLsb', and_assoc]

theorem eq_enqWord_iff {w : OpWord} {b : Byte} :
    w = 0x40000000#32 ||| b.setWidth 32 ↔ w.extractLsb' 8 24 = 0x400000#24 ∧ w.extractLsb' 0 8 = b := by
  have fields : 0x40000000#32 ||| b.setWidth 32 = 0x400000#24 ++ b := by
    rw [show 0x40000000#32 = (0x400000#24).setWidth 32 <<< 8 from rfl, shiftLeft_or_eq_append,
      BitVec.setWidth_eq]
  rw [fields, eq_append_iff (m := 24) (n := 8)]

theorem eq_outWriteWord_iff {w : OpWord} {vr vg vb : Level} :
    w = 0xC0000000#32 ||| vr.setWidth 32 <<< 20 ||| vg.setWidth 32 <<< 10 ||| vb.setWidth 32 ↔
      w.extractLsb' 30 2 = 0b11#2 ∧ w.extractLsb' 20 10 = vr ∧ w.extractLsb' 10 10 = vg ∧ w.extractLsb' 0 10 = vb := by
  have fields : 0xC0000000#32 ||| vr.setWidth 32 <<< 20 ||| vg.setWidth 32 <<< 10 ||| vb.setWidth 32 =
      0b11#2 ++ (vr ++ (vg ++ vb)) := by
    rw [BitVec.or_assoc, shiftLeft_or_eq_append, BitVec.or_assoc,
      shiftLeft_or_eq_append, show 0xC0000000#32 = (0b11#2).setWidth 32 <<< 30 from rfl,
      shiftLeft_or_eq_append, BitVec.setWidth_eq]
  rw [fields, eq_append_iff (m := 2) (n := 30), eq_append_iff (m := 10) (n := 20),
    eq_append_iff (m := 10) (n := 10)]
  simp [extractLsb'_extractLsb']

/-! ## The decoder's answer from the fields (30_encoding.md R72) -/

/-- OUT_WRITE's two-bit opcode is the upper half of the four opcode bits of the other operations. -/
theorem opcode_upper_half (w : OpWord) : w.extractLsb' 30 2 = (w.extractLsb' 28 4).extractLsb' 2 2 :=
  (extractLsb'_extractLsb' w 28 4 2 2 (by decide)).symm

/-- The 24 fixed bits of ENQ begin with its opcode. -/
theorem opcode_of_enqField (w : OpWord) : w.extractLsb' 28 4 = (w.extractLsb' 8 24).extractLsb' 20 4 :=
  (extractLsb'_extractLsb' w 8 24 20 4 (by decide)).symm

theorem decodeOp_outWrite {w : OpWord} (h : w.extractLsb' 30 2 = 0b11#2) :
    decodeOp w = .ok (.outWrite (w.extractLsb' 20 10) (w.extractLsb' 10 10) (w.extractLsb' 0 10)) := by
  simp [decodeOp, h]

theorem decodeOp_edge {w : OpWord} (opcode : w.extractLsb' 28 4 = 0x1#4) (zeros : w.extractLsb' 17 11 = 0#11) :
    decodeOp w = .ok (.edge (Polarity.ofBit (w.extractLsb' 16 1)) (w.extractLsb' 0 16)) := by
  simp [decodeOp, opcode_upper_half, opcode, zeros]

theorem decodeOp_bgTick {w : OpWord} (opcode : w.extractLsb' 28 4 = 0x2#4) (zeros : w.extractLsb' 16 12 = 0#12) :
    decodeOp w = .ok (.bgTick (w.extractLsb' 0 16)) := by
  simp [decodeOp, opcode_upper_half, opcode, zeros]

theorem decodeOp_enq {w : OpWord} (h : w.extractLsb' 8 24 = 0x400000#24) :
    decodeOp w = .ok (.enq (w.extractLsb' 0 8)) := by
  have opcode : w.extractLsb' 28 4 = 0x4#4 := by rw [opcode_of_enqField, h]; rfl
  have not_deframe : w ≠ 0x30000000#32 := by
    rintro rfl
    exact absurd h (by decide)
  simp [decodeOp, opcode_upper_half, opcode, not_deframe, h]

theorem Polarity_ofBit_bit (p : Polarity) : Polarity.ofBit p.bit = p := by cases p <;> rfl

theorem Polarity_bit_ofBit (b : BitVec 1) : (Polarity.ofBit b).bit = b := by
  revert b; decide

/-! ## The round trip -/

/-- Settles O1: for a word with operands the decoder's tests and fields are read off the encoded word; the other
operation words are fixed, and the operands of a byte are few. -/
theorem decodeOfEncodeIsTheInstruction : Obligations.DecodeOfEncodeIsTheInstruction := by
  intro i
  cases i with
  | edge p ts =>
    obtain ⟨opcode, zeros, polarity, time⟩ := eq_edgeWord_iff.1 (Eq.refl _)
    rw [encode, decode, decodeOp_edge opcode zeros, polarity, time, Polarity_ofBit_bit]
  | bgTick ts =>
    obtain ⟨opcode, zeros, time⟩ := eq_bgTickWord_iff.1 (Eq.refl _)
    rw [encode, decode, decodeOp_bgTick opcode zeros, time]
  | enq b =>
    obtain ⟨fixed, byte⟩ := eq_enqWord_iff.1 (Eq.refl _)
    rw [encode, decode, decodeOp_enq fixed, byte]
  | outWrite vr vg vb =>
    obtain ⟨opcode, red, green, blue⟩ := eq_outWriteWord_iff.1 (Eq.refl _)
    rw [encode, decode, decodeOp_outWrite opcode, red, green, blue]
  | selAnim n => revert n; decide
  | selColor n => revert n; decide
  | setBri v => revert v; decide
  | setSpd v => revert v; decide
  | unknown08 x => revert x; decide
  | unknown40 x => revert x; decide
  | _ => rfl

/-- Each branch of the decoder tests every bit that it does not return, so no bit is dropped. -/
theorem encode_of_decodeOp {w : OpWord} {i : Instr} (h : decodeOp w = .ok i) : encode i = .op w := by
  unfold decodeOp at h
  split_ifs at h with outWrite edge bgTick deframe enq deq rollover drain pwrOff pwrOn <;> cases h
  case pos => exact congrArg PortWord.op (eq_outWriteWord_iff.2 ⟨outWrite, rfl, rfl, rfl⟩).symm
  case pos =>
    exact congrArg PortWord.op (eq_edgeWord_iff.2 ⟨edge.1, edge.2, (Polarity_bit_ofBit _).symm, rfl⟩).symm
  case pos => exact congrArg PortWord.op (eq_bgTickWord_iff.2 ⟨bgTick.1, bgTick.2, rfl⟩).symm
  case pos => exact congrArg PortWord.op deframe.symm
  case pos => exact congrArg PortWord.op (eq_enqWord_iff.2 ⟨enq, rfl⟩).symm
  case pos => exact congrArg PortWord.op deq.symm
  case pos => exact congrArg PortWord.op rollover.symm
  case pos => exact congrArg PortWord.op drain.symm
  case pos => exact congrArg PortWord.op pwrOff.symm
  case pos => exact congrArg PortWord.op pwrOn.symm

theorem encode_decodeCommand : ∀ b : Byte, encode (decodeCommand b) = .command b := by decide +kernel

theorem encode_of_decodeBroadcast {b : Byte} {i : Instr} (h : decodeBroadcast b = .ok i) : encode i = .broadcast b := by
  unfold decodeBroadcast at h
  split_ifs at h with off on <;> cases h
  case pos => rw [off, encode]
  case pos => rw [on, encode]

/-- Settles O2, channel by channel. -/
theorem encodeOfDecodeIsTheWord : Obligations.EncodeOfDecodeIsTheWord := by
  intro w i h
  cases w with
  | op w => exact encode_of_decodeOp h
  | command b => cases h; exact encode_decodeCommand b
  | broadcast b => exact encode_of_decodeBroadcast h

/-! ## The rows of the table -/

theorem row_fits_encode (i : Instr) : i.row.fits (encode i) = true := by
  cases i with
  | edge p ts => exact RowMatch.edge p ts
  | bgTick ts => exact RowMatch.bgTick ts
  | enq b => exact RowMatch.enq b
  | outWrite vr vg vb => exact RowMatch.outWrite vr vg vb
  | selAnim n => exact RowMatch.selAnim n
  | selColor n => exact RowMatch.selColor n
  | setBri v => exact RowMatch.setBri v
  | setSpd v => exact RowMatch.setSpd v
  | unknown08 x => exact RowMatch.unknown08 x
  | unknown40 x => exact RowMatch.unknown40 x
  | _ => rfl

theorem fits_iff (r : OpcodeRow) (w : PortWord) :
    r.fits w = true ↔ w.format = r.format ∧ w.bits &&& r.mask = r.value := by
  simp [OpcodeRow.fits]

/-- An operation word that fits a row decodes to an instruction of the row: the mask covers the bits that the decoder
tests. -/
theorem decodeOp_of_fits {w : OpWord} {j : Instr} (h : j.row.fits (.op w) = true) :
    ∃ i, decodeOp w = .ok i ∧ i.row = j.row := by
  obtain ⟨format, bits⟩ := (fits_iff _ _).1 h
  cases j with
  | edge p ts =>
    have masked : w &&& 0xFFFE0000#32 = 0x10000000#32 := bits
    exact ⟨_, decodeOp_edge (field_of_masked masked 28 4 rfl) (field_of_masked masked 17 11 rfl), rfl⟩
  | bgTick ts =>
    have masked : w &&& 0xFFFF0000#32 = 0x20000000#32 := bits
    exact ⟨_, decodeOp_bgTick (field_of_masked masked 28 4 rfl) (field_of_masked masked 16 12 rfl), rfl⟩
  | enq b =>
    have masked : w &&& 0xFFFFFF00#32 = 0x40000000#32 := bits
    exact ⟨_, decodeOp_enq (field_of_masked masked 8 24 rfl), rfl⟩
  | outWrite vr vg vb =>
    have masked : w &&& 0xC0000000#32 = 0xC0000000#32 := bits
    exact ⟨_, decodeOp_outWrite (field_of_masked masked 30 2 rfl), rfl⟩
  | deframe | deq | rollover | drain | pwrOff | pwrOn =>
    obtain rfl := (BitVec.and_allOnes (x := w)).symm.trans bits
    exact ⟨_, rfl, rfl⟩
  | _ => cases format

/-- Each row of the command table against each of the 256 bytes. -/
theorem decodeCommand_row_of_fits {j : Instr} :
    ∀ b : Byte, j.row.fits (.command b) = true → (decodeCommand b).row = j.row := by
  cases j with
  | nocmd | cmdPwrOff | cmdPwrOn | briDec | briInc | spdDec | spdInc | unknown01 => decide +kernel
  | selAnim n => rw [Instr.row]; decide +kernel
  | selColor n => rw [Instr.row]; decide +kernel
  | setBri v => rw [Instr.row]; decide +kernel
  | setSpd v => rw [Instr.row]; decide +kernel
  | unknown08 x => rw [Instr.row]; decide +kernel
  | unknown40 x => rw [Instr.row]; decide +kernel
  | _ => exact fun b h => nomatch ((fits_iff _ _).1 h).1

/-- The mask 0xFF covers the whole byte. -/
theorem byte_of_masked {b v : Byte} (h : b.setWidth 32 &&& 0xFF#32 = v.setWidth 32) : b = v := by
  have low := congrArg (BitVec.setWidth 8) h
  rwa [BitVec.setWidth_and, BitVec.setWidth_setWidth_of_le b (by decide), BitVec.setWidth_setWidth_of_le v (by decide),
    show (0xFF#32).setWidth 8 = BitVec.allOnes 8 from rfl, BitVec.and_allOnes, BitVec.setWidth_eq,
    BitVec.setWidth_eq] at low

theorem decodeBroadcast_of_fits {j : Instr} {b : Byte} (h : j.row.fits (.broadcast b) = true) :
    ∃ i, decodeBroadcast b = .ok i ∧ i.row = j.row := by
  obtain ⟨format, bits⟩ := (fits_iff _ _).1 h
  cases j with
  | bcastAnimOff =>
    obtain rfl : b = 0x01#8 := byte_of_masked bits
    exact ⟨_, rfl, rfl⟩
  | bcastAnimOn =>
    obtain rfl : b = 0x02#8 := byte_of_masked bits
    exact ⟨_, rfl, rfl⟩
  | _ => cases format

/-- A word that fits a row decodes to an instruction of that row. -/
theorem decode_of_fits {w : PortWord} {j : Instr} (h : j.row.fits w = true) :
    ∃ i, decode w = .ok i ∧ i.row = j.row := by
  cases w with
  | op w => exact decodeOp_of_fits h
  | command b => exact ⟨_, rfl, decodeCommand_row_of_fits b h⟩
  | broadcast b => exact decodeBroadcast_of_fits h

/-- Settles O4: the decoder answers one instruction, and it is of both rows. -/
theorem noWordFitsTwoTableRows : Obligations.NoWordFitsTwoTableRows := by
  intro w i j fits_i fits_j
  obtain ⟨k, decodes, row_i⟩ := decode_of_fits fits_i
  obtain ⟨k', decodes', row_j⟩ := decode_of_fits fits_j
  obtain rfl : k = k' := Except.ok.inj (decodes.symm.trans decodes')
  exact row_i.symm.trans row_j

/-- Settles O5: a decoded word is the encoding of its instruction (O2), which fits its row. -/
theorem decodeFollowsTheTableRows : Obligations.DecodeFollowsTheTableRows := by
  refine ⟨fun w i decodes => ?_, fun w j => decode_of_fits⟩
  rw [← encodeOfDecodeIsTheWord w i decodes]
  exact row_fits_encode i

/-! ## The reserved words (30_encoding.md R84) -/

/-- The opcode by a shift, as R84 is stated here. -/
theorem shift_eq_iff_opcode (w : OpWord) (n : Nat) (hn : n < 16) :
    w >>> 28 = BitVec.ofNat 32 n ↔ w.extractLsb' 28 4 = BitVec.ofNat 4 n := by
  simp only [← BitVec.toNat_inj, BitVec.toNat_ushiftRight, BitVec.extractLsb'_toNat, BitVec.toNat_ofNat,
    Nat.shiftRight_eq_div_pow]
  omega

/-- The bits under a mask of one run of ones are zero iff the field there is. -/
theorem masked_eq_zero_iff (w mask : BitVec 32) (lo len : Nat) (fits : lo + len ≤ 32)
    (run : ∀ i < 32, mask.getLsbD i = decide (lo ≤ i ∧ i < lo + len)) :
    w &&& mask = 0#32 ↔ w.extractLsb' lo len = 0#len := by
  constructor
  · intro h
    apply BitVec.eq_of_getLsbD_eq
    intro i hi
    have bit := congrArg (BitVec.getLsbD · (lo + i)) h
    rw [BitVec.getLsbD_and, run _ (by omega), BitVec.getLsbD_zero] at bit
    rw [BitVec.getLsbD_extractLsb', BitVec.getLsbD_zero]
    simpa [hi] using bit
  · intro h
    apply BitVec.eq_of_getLsbD_eq
    intro i hi
    rw [BitVec.getLsbD_and, run i hi, BitVec.getLsbD_zero]
    by_cases inside : lo ≤ i ∧ i < lo + len
    · have bit := congrArg (BitVec.getLsbD · (i - lo)) h
      rw [BitVec.getLsbD_extractLsb', BitVec.getLsbD_zero, Nat.add_sub_of_le inside.1,
        decide_eq_true (show i - lo < len by omega), Bool.true_and] at bit
      rw [bit, Bool.false_and]
    · rw [decide_eq_false inside, Bool.and_false]

/-- An operation without operands is its opcode and zeros (30_encoding.md R75, R77 to R79, R81, R82). -/
theorem fixedWord_iff (w : OpWord) (n : BitVec 4) (v : BitVec 32) (hv : v = n ++ 0#28) :
    w = v ↔ w.extractLsb' 28 4 = n ∧ w.extractLsb' 0 28 = 0#28 := by
  rw [hv, eq_append_iff (m := 4) (n := 28)]

/-- The fixed bits of ENQ are its opcode and twenty zeros (30_encoding.md R76). -/
theorem enqField_iff (w : OpWord) :
    w.extractLsb' 8 24 = 0x400000#24 ↔ w.extractLsb' 28 4 = 0x4#4 ∧ w.extractLsb' 8 20 = 0#20 := by
  rw [show 0x400000#24 = 0x4#4 ++ 0#20 from rfl, eq_append_iff (m := 4) (n := 20)]
  simp [extractLsb'_extractLsb']

theorem opcode_cases : ∀ n : BitVec 4, n = 0x0#4 ∨ n = 0x1#4 ∨ n = 0x2#4 ∨ n = 0x3#4 ∨ n = 0x4#4 ∨ n = 0x5#4 ∨
    n = 0x6#4 ∨ n = 0x7#4 ∨ n = 0x8#4 ∨ n = 0x9#4 ∨ n = 0xA#4 ∨ n = 0xB#4 ∨ n = 0xC#4 ∨ n = 0xD#4 ∨ n = 0xE#4 ∨
    n = 0xF#4 := by decide

theorem ok_else_eq_error_iff {c : Prop} [Decidable c] {i : Instr} {rest : Except DecodeReject Instr}
    {r : DecodeReject} : (if c then .ok i else rest) = .error r ↔ ¬ c ∧ rest = .error r := by
  by_cases h : c <;> simp [h]

/-- The reserved words are those that fail every test of R72. -/
theorem decodeOp_reserved_iff (w : OpWord) : decodeOp w = .error .reservedEncoding ↔
    ¬ w.extractLsb' 30 2 = 0b11#2 ∧ ¬ (w.extractLsb' 28 4 = 0x1#4 ∧ w.extractLsb' 17 11 = 0#11) ∧
    ¬ (w.extractLsb' 28 4 = 0x2#4 ∧ w.extractLsb' 16 12 = 0#12) ∧ ¬ w = 0x30000000#32 ∧
    ¬ w.extractLsb' 8 24 = 0x400000#24 ∧ ¬ w = 0x50000000#32 ∧ ¬ w = 0x60000000#32 ∧ ¬ w = 0x70000000#32 ∧
    ¬ w = 0x80000000#32 ∧ ¬ w = 0x90000000#32 := by
  simp only [decodeOp, ok_else_eq_error_iff, and_true]

/-- Settles O3: both sides are conditions on the opcode and on the bits below it, compared opcode by opcode. -/
theorem reservedWordsAreExactlyThoseListed : Obligations.ReservedWordsAreExactlyThoseListed := by
  intro w
  rw [decodeOp_reserved_iff, opcode_upper_half, enqField_iff, fixedWord_iff w 0x3#4 0x30000000#32 rfl,
    fixedWord_iff w 0x5#4 0x50000000#32 rfl, fixedWord_iff w 0x6#4 0x60000000#32 rfl,
    fixedWord_iff w 0x7#4 0x70000000#32 rfl, fixedWord_iff w 0x8#4 0x80000000#32 rfl,
    fixedWord_iff w 0x9#4 0x90000000#32 rfl]
  simp only [shift_eq_iff_opcode, Nat.reduceLT, ne_eq]
  rw [masked_eq_zero_iff w 0x0FFE0000#32 17 11 (by decide) (by decide),
    masked_eq_zero_iff w 0x0FFF0000#32 16 12 (by decide) (by decide),
    masked_eq_zero_iff w 0x0FFFFF00#32 8 20 (by decide) (by decide),
    masked_eq_zero_iff w 0x0FFFFFFF#32 0 28 (by decide) (by decide)]
  obtain h | h | h | h | h | h | h | h | h | h | h | h | h | h | h | h := opcode_cases (w.extractLsb' 28 4)
  all_goals simp [h]

/-! ## Classes and samples -/

/-- Settles O6: the two chains of tests agree on all 256 bytes. -/
theorem commandBytesHaveTheirClass : Obligations.CommandBytesHaveTheirClass :=
  cmdClass?_decodeCommand

/-- Settles O7: nine closed words. -/
theorem sampleWordsDecode : Obligations.SampleWordsDecode := by
  refine ⟨?_, ?_, ?_, ?_, ?_, ?_, ?_, ?_, ?_⟩ <;> decide

end Sys2Proof.Proofs
end

section
/-! What an instruction does, unit by unit: its effect on each unit of the machine as a function of that unit, and the
whole next state as their product. The statements about every instruction rest on this one equation. -/

namespace Sys2Proof.Proofs

open Sys2Proof Sys2Proof.Machine

/-! ## The effect on each unit -/

/-- The decoder after an instruction, and the record that it emits. -/
def decEffect (P : Params) (i : Instr) (x : IrDecoder) : IrDecoder × Option IrOut :=
  match i with
  | .edge p ts => x.edge P p ts
  | .bgTick ts => (x.tick ts, none)
  | .deframe => (x.deframe, x.frameRecord P)
  | _ => (x, none)

/-- The queue after an instruction. -/
def queueEffect (i : Instr) (q : CmdQueue) : CmdQueue :=
  match i with
  | .enq b => q.enqueue b
  | .deq => q.dequeue
  | _ => q

/-- The output stage after an instruction; `brightness` is the consumer's, which SELCOLOR scales by. -/
def outEffect (P : Params) (brightness : Nat) (i : Instr) (o : OutputStage) : OutputStage :=
  match i with
  | .rollover => o.roll P
  | .drain => o.drained
  | .pwrOff => o.halt
  | .cmdPwrOff => o.halt
  | .pwrOn => o.resume
  | .cmdPwrOn => o.resume
  | .outWrite vr vg vb => o.write P ⟨vr, vg, vb⟩
  | .selColor n =>
    if h : n.toNat < 16 then o.write P ((paletteColor P ⟨n.toNat, h⟩).map (scaleLevel brightness)) else o
  | _ => o

/-- The consumer after an instruction. -/
def nodeEffect (P : Params) (i : Instr) (n : Node) : Node :=
  match i with
  | .cmdPwrOff => { n with isOn := false }
  | .cmdPwrOn => { n with isOn := true }
  | .briDec => { n with brightness := max (n.brightness - 1) 1 }
  | .briInc => { n with brightness := min (n.brightness + 1) 63 }
  | .spdDec => { n with speed := n.speed - 1 }
  | .spdInc => { n with speed := min (n.speed + 1) 63 }
  | .selAnim k =>
    if h : k.toNat < 4 then
      { n with
        activeAnim := ⟨animName ⟨k.toNat, h⟩, smoothFlag P ⟨k.toNat, h⟩⟩
        anim := ⟨0, 0, 1⟩
        mode := .animated }
    else n
  | .selColor k => if k.toNat < 16 then { n with selectedColor := k.toNat, mode := .static } else n
  | .setBri v => if 1 ≤ v.toNat then { n with brightness := v.toNat } else n
  | .setSpd v => { n with speed := v.toNat }
  | .bcastAnimOff => { n with masterAnimated := false }
  | .bcastAnimOn => { n with masterAnimated := true }
  | _ => n

/-- What an instruction delivers on the result port. -/
def resultEffect (i : Instr) (q : CmdQueue) (o : OutputStage) : List PortResult :=
  match i with
  | .deq => [.byte q.front]
  | .drain => [.count o.ticks]
  | _ => []

section
variable (P : Params) (x : IrDecoder)

theorem decEffect_edge (p : Polarity) (ts : Micros) : decEffect P (.edge p ts) x = x.edge P p ts := rfl
theorem decEffect_deframe : decEffect P .deframe x = (x.deframe, x.frameRecord P) := rfl

end

/-- The next state of an instruction that has one. -/
def effect (i : Instr) (s : State) : State :=
  { s with
    dec := (decEffect s.params i s.dec).1
    queue := queueEffect i s.queue
    out := outEffect s.params s.node.brightness i s.out
    node := nodeEffect s.params i s.node
    ports := ⟨s.ports.irOut ++ (decEffect s.params i s.dec).2.toList,
      s.ports.results ++ resultEffect i s.queue s.out, s.ports.lineHistory⟩ }

/-- A next state is the effect, from its units and its traces. -/
theorem next_effect {i : Instr} {s t : State}
    (units : t = { s with
      dec := (decEffect s.params i s.dec).1
      queue := queueEffect i s.queue
      out := outEffect s.params s.node.brightness i s.out
      node := nodeEffect s.params i s.node
      ports := t.ports })
    (records : t.ports.irOut = s.ports.irOut ++ (decEffect s.params i s.dec).2.toList)
    (results : t.ports.results = s.ports.results ++ resultEffect i s.queue s.out)
    (lines : t.ports.lineHistory = s.ports.lineHistory) :
    (.next t : Host.Outcome State Fault Refusal) = .next (effect i s) := by
  rw [units, effect, ← records, ← results, ← lines]

/-- Each instruction's meaning is the product of its effects on the units, wherever its guard holds. -/
theorem exec_of_enabled {i : Instr} {s : State} (h : enabled i s = true) : exec i s = .next (effect i s) := by
  have nil {α : Type} (l : List α) : l = l ++ [] := (List.append_nil l).symm
  cases i with
  | edge p ts => exact next_effect rfl rfl (nil _) rfl
  | deframe => rw [exec_deframe_eq h]; exact next_effect rfl rfl (nil _) rfl
  | rollover => rw [exec_rollover_eq h]; exact next_effect rfl (nil _) (nil _) rfl
  | deq => exact next_effect rfl (nil _) rfl rfl
  | drain => exact next_effect rfl (nil _) rfl rfl
  | selAnim n =>
    by_cases defined : n.toNat < 4
    · rw [exec_selAnim_of_lt defined]
      refine next_effect ?_ (nil _) (nil _) rfl
      rw [nodeEffect, dif_pos defined]
      rfl
    · rw [exec, execSelAnim, dif_neg defined]
      refine next_effect ?_ (nil _) (nil _) rfl
      rw [nodeEffect, dif_neg defined]
      rfl
  | selColor n =>
    by_cases defined : n.toNat < 16
    · rw [exec, execSelColor, dif_pos defined]
      refine next_effect ?_ (nil _) (nil _) rfl
      rw [nodeEffect, if_pos defined, outEffect, dif_pos defined]
      rfl
    · rw [exec, execSelColor, dif_neg defined]
      refine next_effect ?_ (nil _) (nil _) rfl
      rw [nodeEffect, if_neg defined, outEffect, dif_neg defined]
      rfl
  | setBri v =>
    by_cases defined : 1 ≤ v.toNat
    · rw [exec, execSetBri, if_pos defined]
      refine next_effect ?_ (nil _) (nil _) rfl
      rw [nodeEffect, if_pos defined]
      rfl
    · rw [exec, execSetBri, if_neg defined]
      refine next_effect ?_ (nil _) (nil _) rfl
      rw [nodeEffect, if_neg defined]
      rfl
  | _ => exact next_effect rfl (nil _) (nil _) rfl

/-- An instruction without its guard is stuck (60_exceptions.md R226). -/
theorem enabled_of_exec_next {i : Instr} {s t : State} (h : exec i s = .next t) : enabled i s = true := by
  cases i with
  | deframe => exact (execDeframe_next h).1
  | rollover => exact (execRollover_next h).1
  | _ => rfl

theorem exec_next_iff {i : Instr} {s t : State} : exec i s = .next t ↔ enabled i s = true ∧ t = effect i s := by
  constructor
  · intro h
    have guard := enabled_of_exec_next h
    rw [exec_of_enabled guard] at h
    exact ⟨guard, (Host.Outcome.next.inj h).symm⟩
  · rintro ⟨guard, rfl⟩
    exact exec_of_enabled guard

/-- The two guards (20_memory.md R63). -/
theorem enabled_iff {i : Instr} {s : State} : enabled i s = true ↔
    (i = .deframe → s.dec.frameReady = true) ∧ (i = .rollover → s.out.genRun = true) := by
  cases i <;> simp [enabled]

end Sys2Proof.Proofs
end

section
/-! Which operations write which element (10_state.md R24), what an instruction's effect does not read (10_state.md R29,
60_exceptions.md R234, 45_command_bytes.md R206), and where an instruction has no step (60_exceptions.md R226). -/

namespace Sys2Proof.Proofs

open Sys2Proof Sys2Proof.Machine

/-! ## Where there is no step -/

/-- The two stuck outcomes (log 5). -/
theorem exec_of_not_enabled {i : Instr} {s : State} (h : enabled i s = false) :
    (i = .deframe ∧ s.dec.frameReady = false ∧ exec i s = .fault .noStepFrameNotReady) ∨
    (i = .rollover ∧ s.out.genRun = false ∧ exec i s = .fault .noStepGeneratorHalted) := by
  cases i with
  | deframe =>
    have waiting : s.dec.frameReady = false := h
    exact .inl ⟨rfl, waiting, by simp [exec, execDeframe, waiting]⟩
  | rollover =>
    have halted : s.out.genRun = false := h
    exact .inr ⟨rfl, halted, by simp [exec, execRollover, halted]⟩
  | _ => cases h

/-- Whether and how an instruction is stuck depends on the two guards alone. -/
theorem exec_fault_iff {i : Instr} {s : State} {r : Fault} : exec i s = .fault r ↔
    (i = .deframe ∧ s.dec.frameReady = false ∧ r = .noStepFrameNotReady) ∨
    (i = .rollover ∧ s.out.genRun = false ∧ r = .noStepGeneratorHalted) := by
  constructor
  · intro h
    cases guard : enabled i s with
    | true => cases (exec_of_enabled guard).symm.trans h
    | false =>
      obtain ⟨rfl, waiting, e⟩ | ⟨rfl, halted, e⟩ := exec_of_not_enabled guard
      · exact .inl ⟨rfl, waiting, Host.Outcome.fault.inj (h.symm.trans e)⟩
      · exact .inr ⟨rfl, halted, Host.Outcome.fault.inj (h.symm.trans e)⟩
  · rintro (⟨rfl, waiting, rfl⟩ | ⟨rfl, halted, rfl⟩)
    · simp [exec, execDeframe, waiting]
    · simp [exec, execRollover, halted]

/-- Settles O14: a step is the guard, and the guard is false for the two stuck outcomes only. -/
theorem instructionsHaveAStepExactlyWhenGuarded : Obligations.InstructionsHaveAStepExactlyWhenGuarded := by
  refine ⟨fun i s => ?_, fun s waiting => ?_, fun s halted => ?_⟩
  · simp only [exec_next_iff, exists_and_left, exists_eq, and_true, enabled_iff]
  · exact exec_fault_iff.2 (.inl ⟨rfl, waiting, rfl⟩)
  · exact exec_fault_iff.2 (.inr ⟨rfl, halted, rfl⟩)

/-! ## The writers of each element -/

/-- What EDGE leaves alone, whatever it does. -/
theorem edge_keeps_last (P : Params) (p : Polarity) (ts : Micros) (x : IrDecoder) :
    (x.edge P p ts).1.lastValid = x.lastValid ∧ (x.edge P p ts).1.lastAddr = x.lastAddr ∧
      (x.edge P p ts).1.lastCmd = x.lastCmd := by
  obtain ⟨-, e⟩ | ⟨-, ⟨-, -, e⟩ | ⟨-, -, e⟩ | ⟨-, -, -, -, e⟩ | ⟨-, -, -, -, e⟩ | ⟨-, -, -, e⟩ | ⟨-, -, e⟩ |
    ⟨k, -, -, -, e⟩ | ⟨k, -, -, -, e⟩ | ⟨k, -, -, -, e⟩ | ⟨k, -, -, -, e⟩ | ⟨-, e⟩⟩ := edge_cases P p ts x
  all_goals exact e ▸ ⟨rfl, rfl, rfl⟩

/-- What DEFRAME leaves alone. -/
theorem deframe_keeps (x : IrDecoder) :
    x.deframe.baseline = x.baseline ∧ x.deframe.acc = x.acc ∧ x.deframe.raw = x.raw := by
  obtain ⟨-, e⟩ | ⟨-, e⟩ := deframe_cases x
  all_goals exact e ▸ ⟨rfl, rfl, rfl⟩

section Writers
variable {α : Type} {P : Params} {i : Instr}

/-- Only the three operations of the decoder act on it, so an observation `f` of the decoder that changed names one. -/
theorem dec_writer {x : IrDecoder} (f : IrDecoder → α) (h : f (decEffect P i x).1 ≠ f x) :
    (∃ p ts, i = .edge p ts) ∨ (∃ ts, i = .bgTick ts) ∨ i = .deframe := by
  cases i with
  | edge p ts => exact .inl ⟨p, ts, rfl⟩
  | bgTick ts => exact .inr (.inl ⟨ts, rfl⟩)
  | deframe => exact .inr (.inr rfl)
  | _ => exact absurd rfl h

theorem queue_writer {q : CmdQueue} (f : CmdQueue → α) (h : f (queueEffect i q) ≠ f q) :
    (∃ b, i = .enq b) ∨ i = .deq := by
  cases i with
  | enq b => exact .inl ⟨b, rfl⟩
  | deq => exact .inr rfl
  | _ => exact absurd rfl h

theorem pend_writer {o : OutputStage} {b : Nat} (h : (outEffect P b i o).pend ≠ o.pend) :
    (∃ vr vg vb, i = .outWrite vr vg vb) ∨ ∃ n, i = .selColor n := by
  cases i with
  | outWrite vr vg vb => exact .inl ⟨vr, vg, vb, rfl⟩
  | selColor n => exact .inr ⟨n, rfl⟩
  | _ => exact absurd rfl h

/-- SELCOLOR acts on the output stage by an OUT_WRITE or not at all (45_command_bytes.md R199). -/
theorem outEffect_selColor (P : Params) (b : Nat) (n : BitVec 5) (o : OutputStage) :
    (∃ v, outEffect P b (.selColor n) o = o.write P v) ∨ outEffect P b (.selColor n) o = o := by
  by_cases h : n.toNat < 16
  · exact .inl ⟨_, dif_pos h⟩
  · exact .inr (dif_neg h)

/-- Anything but PEND is written by the other operations of the output stage and the power commands only. -/
theorem out_writer {o : OutputStage} {b : Nat} (f : OutputStage → α) (pendFree : ∀ v, f (o.write P v) = f o)
    (h : f (outEffect P b i o) ≠ f o) :
    i = .rollover ∨ i = .drain ∨ i = .pwrOff ∨ i = .pwrOn ∨ i = .cmdPwrOff ∨ i = .cmdPwrOn := by
  cases i with
  | rollover | drain | pwrOff | pwrOn | cmdPwrOff | cmdPwrOn => simp
  | outWrite vr vg vb => exact absurd (pendFree _) h
  | selColor n =>
    obtain ⟨v, e⟩ | e := outEffect_selColor P b n o
    · exact absurd (e ▸ pendFree v) h
    · exact absurd (congrArg f e) h
  | _ => exact absurd rfl h

theorem comm_writer {o : OutputStage} {b : Nat} (h : (outEffect P b i o).comm ≠ o.comm) : i = .rollover := by
  obtain rfl | rfl | rfl | rfl | rfl | rfl := out_writer (·.comm) (fun _ => rfl) h
  · rfl
  all_goals exact absurd rfl h

theorem chEn_writer {o : OutputStage} {b : Nat} (h : (outEffect P b i o).chEn ≠ o.chEn) :
    i = .rollover ∨ i = .pwrOff ∨ i = .cmdPwrOff := by
  obtain rfl | rfl | rfl | rfl | rfl | rfl := out_writer (·.chEn) (fun _ => rfl) h
  case inl | inr.inr.inl | inr.inr.inr.inr.inl => simp
  all_goals exact absurd rfl h

theorem genRun_writer {o : OutputStage} {b : Nat} (h : (outEffect P b i o).genRun ≠ o.genRun) :
    i = .pwrOff ∨ i = .pwrOn ∨ i = .cmdPwrOff ∨ i = .cmdPwrOn := by
  obtain rfl | rfl | e := out_writer (·.genRun) (fun _ => rfl) h
  · exact absurd rfl h
  · exact absurd rfl h
  · exact e

theorem ticks_writer {o : OutputStage} {b : Nat} (h : (outEffect P b i o).ticks ≠ o.ticks) :
    i = .rollover ∨ i = .drain := by
  obtain e | e | rfl | rfl | rfl | rfl := out_writer (·.ticks) (fun _ => rfl) h
  · exact .inl e
  · exact .inr e
  all_goals exact absurd rfl h

theorem node_writer {n : Node} (h : nodeEffect P i n ≠ n) : i.agent = .dispatcher ∨ i.agent = .busResponder := by
  cases i with
  | edge _ _ | bgTick _ | deframe | enq _ | deq | rollover | drain | pwrOff | pwrOn | outWrite _ _ _ =>
    exact absurd rfl h
  | bcastAnimOff | bcastAnimOn => exact .inr rfl
  | _ => exact .inl rfl

theorem irOut_writer {x : IrDecoder} (h : (decEffect P i x).2 ≠ none) : (∃ p ts, i = .edge p ts) ∨ i = .deframe := by
  cases i with
  | edge p ts => exact .inl ⟨p, ts, rfl⟩
  | deframe => exact .inr rfl
  | _ => exact absurd rfl h

theorem result_writer {q : CmdQueue} {o : OutputStage} (h : resultEffect i q o ≠ []) : i = .deq ∨ i = .drain := by
  cases i with
  | deq => exact .inl rfl
  | drain => exact .inr rfl
  | _ => exact absurd rfl h

end Writers

/-- EDGE is the only operation that fills RAW and ACC (20_memory.md R66). -/
theorem frameBits_writer {P : Params} {i : Instr} {x : IrDecoder}
    (h : (decEffect P i x).1.acc ≠ x.acc ∨ (decEffect P i x).1.raw ≠ x.raw) : ∃ p ts, i = .edge p ts := by
  have changed : ((decEffect P i x).1.acc, (decEffect P i x).1.raw) ≠ (x.acc, x.raw) := by
    simpa [Prod.ext_iff, imp_iff_not_or] using h
  obtain e | ⟨ts, rfl⟩ | rfl := dec_writer (fun y => (y.acc, y.raw)) changed
  · exact e
  · exact absurd rfl changed
  · obtain ⟨-, acc, raw⟩ := deframe_keeps x
    exact absurd (Prod.ext acc raw) changed

/-- The last frame is DEFRAME's alone (10_state.md R31). -/
theorem lastFrame_writer {P : Params} {i : Instr} {x : IrDecoder}
    (h : (decEffect P i x).1.lastValid ≠ x.lastValid ∨ (decEffect P i x).1.lastAddr ≠ x.lastAddr ∨
      (decEffect P i x).1.lastCmd ≠ x.lastCmd) : i = .deframe := by
  have changed : ((decEffect P i x).1.lastValid, (decEffect P i x).1.lastAddr, (decEffect P i x).1.lastCmd) ≠
      (x.lastValid, x.lastAddr, x.lastCmd) := by
    simpa [Prod.ext_iff, imp_iff_not_or] using h
  obtain ⟨p, ts, rfl⟩ | ⟨ts, rfl⟩ | e := dec_writer (fun y => (y.lastValid, y.lastAddr, y.lastCmd)) changed
  · obtain ⟨valid, addr, cmd⟩ := edge_keeps_last P p ts x
    exact absurd (by rw [decEffect_edge, valid, addr, cmd]) changed
  · exact absurd rfl changed
  · exact e

/-- Settles O55: the next state is the product of the effects, and each element has the writers listed above. -/
theorem onlyTheNamedOperationsWrite : Obligations.OnlyTheNamedOperationsWrite := by
  intro i s t h
  obtain ⟨-, rfl⟩ := exec_next_iff.1 h
  refine ⟨rfl, rfl, rfl, dec_writer (·.pos), fun h => ?frameReady, fun h => ?baseline, frameBits_writer,
    dec_writer (·.repeatCnt), lastFrame_writer, fun h => ?slots, fun h => ?rd, pend_writer, comm_writer, chEn_writer,
    genRun_writer, ticks_writer, node_writer, fun h => irOut_writer (P := s.params) (x := s.dec) ?irOut,
    fun h => result_writer (q := s.queue) (o := s.out) ?results⟩
  case frameReady =>
    obtain e | ⟨ts, rfl⟩ | e := dec_writer (·.frameReady) h
    · exact .inl e
    · exact absurd rfl h
    · exact .inr e
  case baseline =>
    obtain e | e | rfl := dec_writer (·.baseline) h
    · exact .inl e
    · exact .inr e
    · exact absurd (deframe_keeps s.dec).1 h
  case slots =>
    have changed : ((queueEffect i s.queue).wr, (queueEffect i s.queue).slot) ≠ (s.queue.wr, s.queue.slot) := by
      simpa [Prod.ext_iff, imp_iff_not_or, effect] using h
    obtain e | rfl := queue_writer (fun q => (q.wr, q.slot)) changed
    · exact e
    · obtain ⟨-, e, -⟩ | ⟨-, e, -⟩ := dequeue_cases s.queue <;> exact absurd (by rw [queueEffect, e]) changed
  case rd =>
    obtain ⟨b, rfl⟩ | e := queue_writer (·.rd) h
    · obtain ⟨-, e⟩ | ⟨-, e⟩ := enqueue_cases b s.queue <;> exact absurd (congrArg CmdQueue.rd e) h
    · exact e
  case irOut =>
    intro none_emitted
    exact h (by simp only [effect, none_emitted, Option.toList_none, List.append_nil])
  case results =>
    intro none_delivered
    exact h (by simp only [effect, none_delivered, List.append_nil])

/-- Settles O27: a change of RAW or ACC takes an EDGE (O55), and a waiting frame drops every EDGE (O17). -/
theorem aWaitingFrameIsNotWritten : Obligations.AWaitingFrameIsNotWritten := by
  intro i s t ready h
  by_contra changed
  obtain ⟨guard, rfl⟩ := exec_next_iff.1 h
  obtain ⟨p, ts, rfl⟩ := frameBits_writer (P := s.params) (i := i) (x := s.dec) (by
    simpa [effect, imp_iff_not_or, or_comm] using changed)
  have dropped := Host.Outcome.next.inj ((edgeIsDroppedWhileAFrameWaits p ts s ready).symm.trans h)
  exact changed (dropped ▸ ⟨rfl, rfl⟩)

/-! ## What is not read -/

/-- EDGE writes RAW and does not read it: at each position its tests are on other elements. -/
theorem edge_with_raw (P : Params) (p : Polarity) (ts : Micros) (x : IrDecoder) (v : Vector Micros 66) :
    ∃ v', ({ x with raw := v } : IrDecoder).edge P p ts =
      ({ (x.edge P p ts).1 with raw := v' }, (x.edge P p ts).2) := by
  refine ⟨(({ x with raw := v } : IrDecoder).edge P p ts).1.raw, ?_⟩
  obtain ready | ready := Bool.eq_false_or_eq_true x.frameReady
  · rw [edge_while_frameReady ready, edge_while_frameReady (x := { x with raw := v }) ready]
  · obtain ⟨h, -⟩ | ⟨h, -⟩ | ⟨h, e⟩ | ⟨k, hk, h, -⟩ | ⟨k, hk, h, -⟩ := phaseOf_cases x.pos.toNat
    · rw [edge_at_start ready h, edge_at_start (x := { x with raw := v }) ready h]
      split_ifs <;> rfl
    · rw [edge_at_lead ready h, edge_at_lead (x := { x with raw := v }) ready h]
      split_ifs <;> rfl
    · simp only [edge_of_not_frameReady ready, edge_of_not_frameReady (x := { x with raw := v }) ready,
        IrDecoder.classify, e]
    · rw [edge_at_bitPulse hk ready h, edge_at_bitPulse (x := { x with raw := v }) hk ready h]
      split_ifs <;> rfl
    · rw [edge_at_bitPause hk ready h, edge_at_bitPause (x := { x with raw := v }) hk ready h]
      split_ifs <;> rfl

theorem decEffect_with_raw (P : Params) (i : Instr) (x : IrDecoder) (v : Vector Micros 66) :
    ∃ v', decEffect P i { x with raw := v } = ({ (decEffect P i x).1 with raw := v' }, (decEffect P i x).2) := by
  cases i with
  | edge p ts => exact edge_with_raw P p ts x v
  | deframe =>
    refine ⟨v, ?_⟩
    obtain ⟨valid, e⟩ | ⟨invalid, e⟩ := deframe_cases x
    · simp only [decEffect_deframe, IrDecoder.deframe, IrDecoder.frameRecord, valid, if_true]
    · simp only [decEffect_deframe, IrDecoder.deframe, IrDecoder.frameRecord, invalid, Bool.false_eq_true,
        if_false, Bool.false_and]
  | _ => exact ⟨v, rfl⟩

/-- Settles O29: the guard and the other units do not see RAW, and the decoder only writes it. -/
theorem rawIsNeverRead : Obligations.RawIsNeverRead := by
  intro i s v
  constructor
  · intro t h
    obtain ⟨guard, rfl⟩ := exec_next_iff.1 h
    obtain ⟨v', e⟩ := decEffect_with_raw s.params i s.dec v
    exact ⟨v', exec_next_iff.2 ⟨(enabled_iff.2 (enabled_iff.1 guard)), by simp only [effect, e]⟩⟩
  · intro r h
    exact exec_fault_iff.2 (exec_fault_iff (s := s).1 h)

/-- Settles O30: the decoder's effect is a function of the parameters and of the decoder. -/
theorem decoderIgnoresTheOtherUnits : Obligations.DecoderIgnoresTheOtherUnits := by
  intro i s s' t t' sameParams sameDec h h'
  obtain ⟨-, rfl⟩ := exec_next_iff.1 h
  obtain ⟨-, rfl⟩ := exec_next_iff.1 h'
  simp only [effect, sameParams, sameDec]
  exact ⟨trivial, _, rfl, rfl⟩

theorem nodeEffect_with_isOn {i : Instr} (off : i ≠ .cmdPwrOff) (on : i ≠ .cmdPwrOn) (P : Params) (n : Node)
    (b : Bool) : nodeEffect P i { n with isOn := b } = { nodeEffect P i n with isOn := b } := by
  cases i with
  | cmdPwrOff => exact absurd rfl off
  | cmdPwrOn => exact absurd rfl on
  | selAnim k => by_cases h : k.toNat < 4 <;> simp [nodeEffect, h]
  | selColor k => by_cases h : k.toNat < 16 <;> simp [nodeEffect, h]
  | setBri v => by_cases h : 1 ≤ v.toNat <;> simp [nodeEffect, h]
  | _ => rfl

/-- Settles O54: neither guard and no other unit's effect reads is_on, and the consumer's own effect passes it on. -/
theorem isOnGatesNothing : Obligations.IsOnGatesNothing := by
  intro i s b off on
  cases guard : enabled i s with
  | true =>
    have guard' : enabled i { s with node := { s.node with isOn := b } } = true := enabled_iff.2 (enabled_iff.1 guard)
    rw [exec_of_enabled guard, exec_of_enabled guard', mapNext]
    rw [effect, nodeEffect_with_isOn off on]
    rfl
  | false =>
    obtain ⟨-, -, stuck⟩ | ⟨-, -, stuck⟩ := exec_of_not_enabled guard
    all_goals
      rw [stuck, mapNext]
      exact exec_fault_iff.2 (exec_fault_iff (s := s).1 stuck)

end Sys2Proof.Proofs
end

section
/-! The step (20_memory.md R58, R61, 60_exceptions.md R227): what each request asks for, what the step answers to it,
and what every step keeps. -/

namespace Sys2Proof.Proofs

open Sys2Proof Sys2Proof.Machine

/-! ## Requests -/

theorem fetch_present_of_ok {w : PortWord} {i : Instr} (h : decode w = .ok i) (s : State) :
    fetch (.present w) s = .run i := by
  rw [fetch, fetchWord, h]

theorem fetch_present_reserved {w : OpWord} (h : decodeOp w = .error .reservedEncoding) (s : State) :
    fetch (.present (.op w)) s = .reserved := by
  rw [fetch, fetchWord, decode, h]

theorem fetch_present_unnamed {b : Byte} (off : b ≠ 0x01#8) (on : b ≠ 0x02#8) (s : State) :
    fetch (.present (.broadcast b)) s = .nothing := by
  rw [fetch, fetchWord, decode, decodeBroadcast, if_neg off, if_neg on]

/-- A record is routed as what KEYMAP gives for it (40_ir_decoder.md R127). -/
theorem fetch_routeRecord {s : State} {k : Nat} {r : IrOut} (h : s.ports.irOut[k]? = some r) :
    fetch (.routeRecord k) s =
      match s.params.keymapByte r.addr r.cmd s.node.masterAnimated with
      | some b => .run (.enq b)
      | none => .nothing := by
  rw [fetch, h]
  cases e : s.params.keymapByte r.addr r.cmd s.node.masterAnimated <;> simp [routeWord, e]

theorem fetch_dispatchResult {s : State} {k : Nat} {b : Byte} (h : s.ports.results[k]? = some (.byte b)) :
    fetch (.dispatchResult k) s = .run (decodeCommand b) := by
  rw [fetch, h]

theorem decodeBroadcast_ne_reserved (b : Byte) : decodeBroadcast b ≠ .error .reservedEncoding := by
  unfold decodeBroadcast
  split_ifs <;> simp

/-- Only an operation word is ever reserved (30_encoding.md R84). -/
theorem fetch_eq_reserved {x : Input} {s : State} (h : fetch x s = .reserved) :
    ∃ w, x = .present (.op w) ∧ decodeOp w = .error .reservedEncoding := by
  cases x with
  | present w =>
    have rejected : decode w = .error .reservedEncoding := by
      rw [fetch, fetchWord] at h
      split at h
      · cases h
      · assumption
      · cases h
    cases w with
    | op w => exact ⟨w, rfl, rejected⟩
    | command b => cases rejected
    | broadcast b => exact absurd rejected (decodeBroadcast_ne_reserved b)
  | routeRecord k =>
    rw [fetch] at h
    split at h
    · split at h <;> cases h
    · cases h
  | dispatchResult k =>
    rw [fetch] at h
    split at h <;> cases h

/-! ## The step's answer -/

section Answer
variable {s : State} {x : Input} {rest : List Input}

theorem step_of_mark (hm : s.refusedMark = true) : step s = .refused .reservedEncoding := by
  simp [step, hm]

theorem step_of_no_request (hm : s.refusedMark = false) (hp : s.pending = []) : step s = .next s := by
  simp [step, hm, hp]

theorem step_of_nothing (hm : s.refusedMark = false) (hp : s.pending = x :: rest) (hf : fetch x s = .nothing) :
    step s = .next { s with pending := rest } := by
  simp [step, hm, hp, hf]

theorem step_of_reserved (hm : s.refusedMark = false) (hp : s.pending = x :: rest) (hf : fetch x s = .reserved) :
    step s = .next { s with refusedMark := true } := by
  simp [step, hm, hp, hf]

end Answer

/-- Settles O8: the request asks for the instruction, whose outcome the step passes on. -/
theorem stepRunsTheDecodedInstruction : Obligations.StepRunsTheDecodedInstruction := by
  intro s w rest i unmarked request decodes
  rw [step_of_run unmarked request (fetch_present_of_ok decodes s)]
  cases exec i { s with pending := rest } <;> rfl

/-- Settles O9: both requests ask for their instruction, or for none. -/
theorem boundaryRequestsIssueTheirInstruction : Obligations.BoundaryRequestsIssueTheirInstruction := by
  refine ⟨fun s k rest r unmarked request record => ⟨fun b mapped => ?_, fun unmapped => ?_⟩,
    fun s k rest b unmarked request result => ?_⟩
  · exact step_of_run unmarked request (by rw [fetch_routeRecord record, mapped])
  · exact step_of_nothing unmarked request (by rw [fetch_routeRecord record, unmapped])
  · exact step_of_run unmarked request (fetch_dispatchResult result)

/-- Settles O10: the word asks for the refusal, and the mark is tested before any request. -/
theorem reservedWordSetsTheRefusedMark : Obligations.ReservedWordSetsTheRefusedMark :=
  ⟨fun s _ _ unmarked request reserved => step_of_reserved unmarked request (fetch_present_reserved reserved s),
    fun _ => step_of_mark⟩

/-- Settles O11: performing an instruction or taking a request off the list leaves the mark clear. -/
theorem onlyReservedWordsSetTheRefusedMark : Obligations.OnlyReservedWordsSetTheRefusedMark := by
  intro s t h marked
  obtain ⟨unmarked, ⟨-, rfl⟩ | ⟨x, rest, request, ⟨i, u, -, performed, rfl⟩ | ⟨-, rfl⟩ | ⟨reserved, -⟩⟩⟩ := step_cases h
  · cases unmarked.symm.trans marked
  · obtain ⟨-, -, kept⟩ := exec_keeps_run performed
    cases (kept.trans unmarked).symm.trans marked
  · cases unmarked.symm.trans marked
  · obtain ⟨w, rfl, rejected⟩ := fetch_eq_reserved reserved
    exact ⟨w, rest, request, rejected⟩

/-- Settles O12: the mark and the list are all that the step tests. -/
theorem noRequestNoChange : Obligations.NoRequestNoChange :=
  fun _ unmarked noRequest => step_of_no_request unmarked noRequest

/-- Settles O13: the byte names no broadcast. -/
theorem otherBusWritesChangeNothing : Obligations.OtherBusWritesChangeNothing :=
  fun s _ _ unmarked request off on => step_of_nothing unmarked request (fetch_present_unnamed off on s)

/-! ## What a step does to the units -/

/-- A step performs an instruction and records the lines, or it touches the model's own two fields only. -/
theorem step_effect {s t : State} (h : step s = .next t) :
    (∃ i rest, Performs s i ∧ enabled i s = true ∧ t = (effect i { s with pending := rest }).recordLines) ∨
    ((∀ i, ¬ Performs s i) ∧ t = { s with pending := t.pending, refusedMark := t.refusedMark }) := by
  obtain ⟨unmarked, ⟨request, rfl⟩ | ⟨x, rest, request, ⟨i, u, asks, performed, rfl⟩ | ⟨asks, rfl⟩ | ⟨asks, rfl⟩⟩⟩ :=
    step_cases h
  · refine .inr ⟨fun i ⟨_, x, rest, e, _⟩ => ?_, rfl⟩
    cases request.symm.trans e
  · obtain ⟨guard, rfl⟩ := exec_next_iff.1 performed
    exact .inl ⟨i, rest, ⟨unmarked, x, rest, request, asks⟩, enabled_iff.2 (enabled_iff.1 guard), rfl⟩
  all_goals
    refine .inr ⟨fun i ⟨_, y, rest', e, asks'⟩ => ?_, rfl⟩
    obtain ⟨rfl, -⟩ := List.cons.inj (request.symm.trans e)
    cases asks.symm.trans asks'

theorem step_keeps_params {s t : State} (h : step s = .next t) : t.params = s.params := by
  obtain ⟨i, rest, -, -, rfl⟩ | ⟨-, e⟩ := step_effect h
  · rfl
  · rw [e]

/-- Settles O28: a performed DEFRAME sets the flag or leaves it, and no other instruction writes it (O55). -/
theorem lastFrameStaysValid : Obligations.LastFrameStaysValid := by
  intro s t h valid
  obtain ⟨i, rest, -, -, rfl⟩ | ⟨-, e⟩ := step_effect h
  · by_contra lost
    have changed : (decEffect s.params i s.dec).1.lastValid ≠ s.dec.lastValid := fun e => lost (e.trans valid)
    obtain rfl := lastFrame_writer (.inl changed)
    obtain ⟨-, e⟩ | ⟨-, e⟩ := deframe_cases s.dec
    · exact lost (congrArg IrDecoder.lastValid e)
    · exact changed (by rw [decEffect_deframe, e])
  · rw [e]
    exact valid

/-- Settles O42: another COMM or CH_EN is the work of a performed instruction, and O55 says which. -/
theorem committedDutiesChangeOnlyAtRollover : Obligations.CommittedDutiesChangeOnlyAtRollover := by
  intro s t h
  obtain ⟨i, rest, performs, -, rfl⟩ | ⟨-, e⟩ := step_effect h
  · refine ⟨fun changed => ?_, fun changed => ?_⟩
    · obtain rfl := comm_writer changed
      exact performs
    · obtain rfl | rfl | rfl := chEn_writer changed
      · exact .inl performs
      · exact .inr (.inl performs)
      · exact .inr (.inr performs)
  · exact ⟨fun changed => absurd (by rw [e]) changed, fun changed => absurd (by rw [e]) changed⟩

/-- Settles O56: an effect appends to the first two traces, and recording appends to the third. -/
theorem tracesOnlyGrow : Obligations.TracesOnlyGrow := by
  intro s t h
  obtain ⟨i, rest, -, -, rfl⟩ | ⟨idle, e⟩ := step_effect h
  · exact ⟨List.prefix_append _ _, List.prefix_append _ _, List.prefix_append _ _, fun _ _ => rfl⟩
  · rw [e]
    exact ⟨List.prefix_rfl, List.prefix_rfl, List.prefix_rfl, fun i performs => absurd performs (idle i)⟩

/-! ## The gamma table -/

theorem le_maxLevel (a b : Level) : a.toNat ≤ (Config.maxLevel a b).toNat := by
  unfold Config.maxLevel
  split
  case isTrue h => exact BitVec.le_def.1 h
  case isFalse => exact le_rfl

/-- A running maximum is monotonic. -/
theorem gammaAt_monotone : Monotone fun n => (Config.gammaAt n).toNat :=
  monotone_nat_of_le_succ fun _ => le_maxLevel _ _

theorem params_gammaMonotone : Config.params.GammaMonotone := by
  intro i j h
  rw [gamma_params, gamma_params]
  exact BitVec.le_def.2 (gammaAt_monotone (BitVec.le_def.1 h))

/-- Settles O37: the table is a running maximum, and no effect writes the parameters. -/
theorem outputMappingIsMonotonic : Obligations.OutputMappingIsMonotonic :=
  ⟨params_gammaMonotone, fun _ _ => step_keeps_params⟩

end Sys2Proof.Proofs
end

section
/-! The command queue as a list (41_command_queue.md R140 to R149): the held bytes after each operation on the circular
buffer, and from these the bounded first-in first-out list, for any sequence of operations. -/

namespace Sys2Proof.Proofs

open Sys2Proof Sys2Proof.Machine

/-! ## The held bytes -/

theorem count_eq (q : CmdQueue) : q.count = (q.wr - q.rd).toNat := by
  rw [CmdQueue.count, show Config.qMask = BitVec.allOnes 4 from rfl, BitVec.and_allOnes]

theorem items_length (q : CmdQueue) : q.items.length = (q.wr - q.rd).toNat := by
  simp [CmdQueue.items, count_eq]

theorem isFull_iff_length (q : CmdQueue) : q.isFull = true ↔ q.items.length = 15 := by
  rw [isFull_iff, items_length]
  bv_omega

theorem items_eq_nil_iff (q : CmdQueue) : q.items = [] ↔ q.wr = q.rd := by
  rw [← List.length_eq_zero_iff, items_length]
  bv_omega

/-- One slot always stays free (41_command_queue.md R140). -/
theorem items_length_le (q : CmdQueue) : q.items.length ≤ 15 := by
  rw [items_length]
  omega

/-- Below the fill, the slots are other slots than the one at Q_WR. -/
theorem slot_ne_wr {q : CmdQueue} {j : Nat} (held : j < (q.wr - q.rd).toNat) : q.rd + BitVec.ofNat 4 j ≠ q.wr := by
  bv_omega

theorem items_enqueue (q : CmdQueue) (b : Byte) :
    (q.enqueue b).items = if q.items.length < 15 then q.items ++ [b] else q.items := by
  obtain ⟨full, unchanged⟩ | ⟨room, stored⟩ := enqueue_cases b q
  · have atCapacity := (isFull_iff_length q).1 full
    rw [unchanged, if_neg (by omega)]
  · have notFull : q.items.length ≠ 15 := fun h => by simp [(isFull_iff_length q).2 h] at room
    have below : q.items.length < 15 := lt_of_le_of_ne (items_length_le q) notFull
    have grown : (q.wr + 1#4 - q.rd).toNat = (q.wr - q.rd).toNat + 1 := by
      rw [items_length] at below
      bv_omega
    have newest : q.rd + BitVec.ofNat 4 (q.wr - q.rd).toNat = q.wr := by bv_omega
    rw [if_pos below, stored, CmdQueue.items, CmdQueue.items, count_eq, count_eq, grown, List.range_succ,
      List.map_append, List.map_singleton, read_set, if_pos newest]
    congr 1
    apply List.map_congr_left
    intro j held
    rw [read_set, if_neg (slot_ne_wr (List.mem_range.1 held))]

/-- The held bytes of a queue that is not empty: the one at Q_RD, then those of the queue after a DEQ. -/
theorem items_of_not_empty {q : CmdQueue} (held : q.wr ≠ q.rd) : q.items = q.front :: q.dequeue.items := by
  obtain ⟨empty, -, -⟩ | ⟨-, advanced, oldest⟩ := dequeue_cases q
  · exact absurd empty held
  · have shrunk : (q.wr - q.rd).toNat = (q.wr - (q.rd + 1#4)).toNat + 1 := by bv_omega
    rw [oldest, advanced, CmdQueue.items, CmdQueue.items, count_eq, count_eq, shrunk, List.range_succ_eq_map,
      List.map_cons, List.map_map]
    congr 1
    · simp
    · apply List.map_congr_left
      intro j _
      have next : q.rd + BitVec.ofNat 4 (j + 1) = q.rd + 1#4 + BitVec.ofNat 4 j := by bv_omega
      exact congrArg q.read next

theorem front_eq_headD (q : CmdQueue) : q.front = q.items.headD 0x00#8 := by
  obtain ⟨empty, -, sentinel⟩ | ⟨held, -, -⟩ := dequeue_cases q
  · rw [sentinel, (items_eq_nil_iff q).2 empty, List.headD_nil]
  · rw [items_of_not_empty held, List.headD_cons]

theorem items_dequeue (q : CmdQueue) : q.dequeue.items = q.items.tail := by
  obtain ⟨empty, unchanged, -⟩ | ⟨held, -, -⟩ := dequeue_cases q
  · rw [unchanged, (items_eq_nil_iff q).2 empty, List.tail_nil]
  · rw [items_of_not_empty held, List.tail_cons]

/-- Settles O33: the fill, the append, the oldest byte and the rest. -/
theorem queueOperationsActOnTheHeldBytes : Obligations.QueueOperationsActOnTheHeldBytes :=
  fun q b => ⟨items_length_le q, items_enqueue q b, front_eq_headD q, items_dequeue q⟩

/-! ## Sequences of operations -/

theorem runInstrs_cons_of_next {i : Instr} {is : List Instr} {s t : State} (h : exec i s = .next t) :
    runInstrs (i :: is) s = runInstrs is t := by
  rw [runInstrs, h]

/-- A DEQ on the list model: the head or the sentinel, and the tail. -/
theorem fifoModel_deq (ops : List (Option Byte)) (l : List Byte) :
    fifoModel (none :: ops) l = (l.headD 0x00#8 :: (fifoModel ops l.tail).1, (fifoModel ops l.tail).2) := by
  cases l <;> rfl

/-- Settles O34, by induction on the operations: each acts on the held bytes as on the list (O33). -/
theorem queueRefinesABoundedFifo : Obligations.QueueRefinesABoundedFifo := by
  intro ops
  induction ops with
  | nil =>
    intro s
    exact ⟨s.queue, rfl, by simp [runInstrs, fifoModel]⟩
  | cons op ops ih =>
    intro s
    cases op with
    | some b =>
      obtain ⟨q, left, run⟩ := ih (s.withQueue (·.enqueue b))
      have model : fifoModel (some b :: ops) s.queue.items = fifoModel ops (s.queue.enqueue b).items := by
        rw [fifoModel, items_enqueue]
      refine ⟨q, by rw [model]; exact left, ?_⟩
      rw [List.map_cons, queueInstr, runInstrs_cons_of_next (exec_enq_eq b s), run, model]
      rfl
    | none =>
      obtain ⟨q, left, run⟩ := ih ((s.withQueue (·.dequeue)).deliver (.byte s.queue.front))
      have model := fifoModel_deq ops s.queue.items
      rw [← front_eq_headD, ← items_dequeue] at model
      refine ⟨q, by rw [model]; exact left, ?_⟩
      rw [List.map_cons, queueInstr, runInstrs_cons_of_next (exec_deq_eq s), run, model]
      simp [State.withQueue, State.deliver]

/-- ENQs alone fill the list up to its capacity. -/
theorem fifoModel_enqs (bs l : List Byte) (h : l.length ≤ 15) :
    (fifoModel (bs.map some) l).2 = (l ++ bs).take 15 := by
  induction bs generalizing l with
  | nil => simp [fifoModel, List.take_of_length_le h]
  | cons b bs ih =>
    rw [List.map_cons, fifoModel]
    split
    case isTrue room =>
      rw [ih _ (by simpa using room), List.append_assoc, List.singleton_append]
    case isFalse full =>
      have atCapacity : l.length = 15 := le_antisymm h (not_lt.1 full)
      rw [ih l h, List.take_append_of_le_length (by omega), List.take_append_of_le_length (by omega)]

/-- Settles O35: on the list model (O34) the ENQs append up to the capacity, from nothing. -/
theorem overflowKeepsTheFirstFifteen : Obligations.OverflowKeepsTheFirstFifteen := by
  intro bs s t empty run
  obtain ⟨q, left, modelRun⟩ := queueRefinesABoundedFifo (bs.map some) s
  rw [List.map_map, show queueInstr ∘ some = Instr.enq from rfl, run] at modelRun
  rw [Host.Outcome.next.inj modelRun, left, (items_eq_nil_iff _).2 empty, fifoModel_enqs bs [] (by simp),
    List.nil_append]

end Sys2Proof.Proofs
end

section
/-! The output stage over time (42_output_stage.md): the lines, what a run without a ROLLOVER keeps, the account of the
ticks; and the commands that act on the output stage or on what it scales by (45_command_bytes.md). -/

namespace Sys2Proof.Proofs

open Sys2Proof Sys2Proof.Machine

/-! ## The lines -/

/-- A line is enabled by its channel and by the generator (10_state.md R36). -/
theorem line_enabled (o : OutputStage) (c : Channel) : (o.line c).enabled = (o.chEn.get c && o.genRun) := rfl

theorem activeCounts_of_enabled {l : LinePair} (h : l.enabled = true) : l.activeCounts = l.duty.toNat := if_pos h

theorem activeCounts_of_disabled {l : LinePair} (h : l.enabled = false) : l.activeCounts = 0 := by
  simp [LinePair.activeCounts, h]

/-- A duty of ten bits never exceeds the period, whichever of the two it is (90_conflicts.md C6). -/
theorem duty_le_counts (d : Level) (p : PwmPeriod) : d.toNat ≤ p.counts := by
  cases p <;> simp only [PwmPeriod.counts] <;> omega

/-- Settles O41: an active line's counts are its duty, which the period always holds. -/
theorem linesAreActiveForTheCommittedCounts : Obligations.LinesAreActiveForTheCommittedCounts := by
  intro P o c
  constructor
  · intro off
    have disabled : (o.line c).enabled = false := by
      rw [line_enabled]
      rcases off with off | off <;> simp [off]
    have inactive := activeCounts_of_disabled disabled
    exact ⟨inactive, by rw [LinePair.inactiveCounts, inactive, Nat.sub_zero]⟩
  · intro lit running
    have active : (o.line c).activeCounts = (o.comm.get c).toNat :=
      activeCounts_of_enabled (by rw [line_enabled, lit, running]; rfl)
    refine ⟨active, ?_⟩
    rw [LinePair.inactiveCounts, active]
    exact Nat.add_sub_of_le (duty_le_counts _ _)

/-! ## Runs -/

/-- What every instruction of a run keeps holds after the run. -/
theorem runInstrs_keeps {p : State → Prop} {is : List Instr}
    (keeps : ∀ i ∈ is, ∀ s t, p s → exec i s = .next t → p t) {s t : State} (run : runInstrs is s = .next t)
    (h : p s) : p t := by
  induction is generalizing s with
  | nil =>
    obtain rfl := Host.Outcome.next.inj run
    exact h
  | cons i is ih =>
    rw [runInstrs] at run
    split at run
    case h_1 u e =>
      exact ih (fun j hj => keeps j (List.mem_cons_of_mem i hj)) run (keeps i List.mem_cons_self s u h e)
    case h_2 => cases run
    case h_3 => cases run

/-- A ROLLOVER is what commits (42_output_stage.md R169). -/
theorem comm_of_exec {i : Instr} {s t : State} (noRollover : i ≠ .rollover) (h : exec i s = .next t) :
    t.out.comm = s.out.comm := by
  obtain ⟨-, rfl⟩ := exec_next_iff.1 h
  by_contra changed
  exact noRollover (comm_writer changed)

theorem chEn_of_exec {i : Instr} {s t : State} (noRollover : i ≠ .rollover) (h : exec i s = .next t) :
    t.out.chEn = s.out.chEn ∨ t.out.chEn = Rgb.all false := by
  obtain ⟨-, rfl⟩ := exec_next_iff.1 h
  by_cases changed : (effect i s).out.chEn = s.out.chEn
  · exact .inl changed
  · obtain rfl | rfl | rfl := chEn_writer changed
    · exact absurd rfl noRollover
    · exact .inr rfl
    · exact .inr rfl

/-- Settles O44: after the PWR_OFF the enables are all 0, and only a ROLLOVER sets one or writes COMM. -/
theorem linesStayDarkFromPowerOffToRollover : Obligations.LinesStayDarkFromPowerOffToRollover := by
  intro s t is noRollover run
  rw [runInstrs_cons_of_next (exec_pwrOff_eq s)] at run
  have dark : t.out.comm = s.out.comm ∧ t.out.chEn = Rgb.all false := by
    refine runInstrs_keeps (p := fun u => u.out.comm = s.out.comm ∧ u.out.chEn = Rgb.all false) ?_ run ⟨rfl, rfl⟩
    rintro i hi u v ⟨comm, chEn⟩ h
    have notRollover : i ≠ .rollover := fun e => noRollover (e ▸ hi)
    refine ⟨(comm_of_exec notRollover h).trans comm, ?_⟩
    obtain kept | off := chEn_of_exec notRollover h
    · exact kept.trans chEn
    · exact off
  refine ⟨dark.1, fun c => ?_⟩
  rw [line_enabled, dark.2, Rgb_get_all, Bool.false_and]

/-- What stands between an OUT_WRITE and the next ROLLOVER, as long as nothing else writes these elements: the duties
committed and pending, the enables, and a generator that runs if it ran. -/
structure AwaitsRollover (o : OutputStage) (P : Params) (pend : Rgb Level) (t : State) : Prop where
  comm : t.out.comm = o.comm
  chEn : t.out.chEn = o.chEn
  pend : t.out.pend = pend
  params : t.params = P
  running : o.genRun = true → t.out.genRun = true

theorem exec_keeps_awaitsRollover {o : OutputStage} {P : Params} {pend : Rgb Level} {i : Instr} {u v : State}
    (allowed : i ≠ .rollover ∧ i ≠ .pwrOff ∧ i ≠ .cmdPwrOff ∧ (∀ r g b, i ≠ .outWrite r g b) ∧ ∀ n, i ≠ .selColor n)
    (h : AwaitsRollover o P pend u) (performed : exec i u = .next v) : AwaitsRollover o P pend v := by
  obtain ⟨noRollover, noOff, noCmdOff, noWrite, noColor⟩ := allowed
  obtain ⟨-, rfl⟩ := exec_next_iff.1 performed
  refine ⟨?_, ?_, ?_, h.params, fun running => ?_⟩
  · exact (comm_of_exec noRollover performed).trans h.comm
  · by_contra changed
    obtain e | e | e := chEn_writer fun e => changed (Eq.trans e h.chEn)
    exacts [noRollover e, noOff e, noCmdOff e]
  · by_contra changed
    obtain ⟨r, g, b, e⟩ | ⟨n, e⟩ := pend_writer fun e => changed (Eq.trans e h.pend)
    exacts [noWrite r g b e, noColor n e]
  · by_contra changed
    obtain e | rfl | e | rfl := genRun_writer fun e => changed (Eq.trans e (h.running running))
    exacts [noOff e, changed rfl, noCmdOff e, changed rfl]

/-- A halted generator has dark channels, so starting it lights no line (10_state.md R35, 42_output_stage.md R179). -/
theorem lines_eq_of_awaitsRollover {o : OutputStage} {P Q : Params} {pend : Rgb Level} {t : State} (inv : OutputInv Q o)
    (h : AwaitsRollover o P pend t) : t.out.lines = o.lines := by
  apply Rgb_ext_get
  intro c
  rw [lines_get, lines_get, OutputStage.line, OutputStage.line, h.comm, h.chEn]
  obtain running | halted := Bool.eq_false_or_eq_true o.genRun
  · rw [h.running running, running]
  · rw [inv.dark_of_halted halted, Rgb_get_all, Bool.false_and, Bool.false_and]

/-- Settles O43: the OUT_WRITE writes PEND alone, the instructions after it keep it there, and the ROLLOVER's enables
are the threshold test on it. -/
theorem disabledAtTheBoundaryNeverBefore : Obligations.DisabledAtTheBoundaryNeverBefore := by
  intro s t vr vg vb is inv allowed run
  rw [runInstrs_cons_of_next (exec_outWrite_eq vr vg vb s)] at run
  have waits : AwaitsRollover s.out s.params (gammaTriple s.params ⟨vr, vg, vb⟩) t :=
    runInstrs_keeps (fun i hi u v => exec_keeps_awaitsRollover (allowed i hi)) run ⟨rfl, rfl, rfl, rfl, id⟩
  refine ⟨lines_eq_of_awaitsRollover inv waits, fun u c boundary below => ?_⟩
  obtain ⟨-, rfl⟩ := execRollover_next boundary
  have disabled : channelEnable (s.params.gamma ((⟨vr, vg, vb⟩ : Rgb Level).get c)) = false := by
    rw [channelEnable_eq, decide_eq_false (not_not.2 below)]
  rw [line_enabled, State.withOut_out, OutputStage.roll_chEn, waits.pend, Rgb_get_map, gammaTriple, Rgb_get_map,
    disabled, Bool.false_and]

/-! ## The account of the ticks (42_output_stage.md R168, R172, R173) -/

theorem countSum_append (a b : List PortResult) : countSum (a ++ b) = countSum a + countSum b := by
  induction a with
  | nil => simp [countSum]
  | cons r a ih => cases r <;> simp [countSum, ih, Nat.add_assoc]

/-- The ticks stay within their bound (10_state.md R23). -/
theorem outEffect_ticks_le {P : Params} {o : OutputStage} (h : o.ticks ≤ P.tickSatMax) (b : Nat) (i : Instr) :
    (outEffect P b i o).ticks ≤ P.tickSatMax := by
  by_cases changed : (outEffect P b i o).ticks = o.ticks
  · exact changed ▸ h
  · obtain rfl | rfl := ticks_writer changed
    · exact min_le_right _ _
    · exact Nat.zero_le _

/-- Only a DRAIN delivers a count. -/
theorem countSum_resultEffect {i : Instr} (noDrain : i ≠ .drain) (q : CmdQueue) (o : OutputStage) :
    countSum (resultEffect i q o) = 0 := by
  by_cases silent : resultEffect i q o = []
  · rw [silent, countSum]
  · obtain rfl | e := result_writer silent
    · rfl
    · exact absurd e noDrain

/-- One instruction's balance: a ROLLOVER adds a tick unless it is lost at saturation, a DRAIN moves the ticks to the
result port. -/
theorem ticks_balance {P : Params} {o : OutputStage} (h : o.ticks ≤ P.tickSatMax) (b : Nat) (i : Instr) (q : CmdQueue) :
    countSum (resultEffect i q o) + (outEffect P b i o).ticks +
        (if i = .rollover ∧ o.ticks = P.tickSatMax then 1 else 0) =
      o.ticks + (if i = .rollover then 1 else 0) := by
  by_cases roll : i = .rollover
  · subst roll
    have added : (outEffect P b .rollover o).ticks = min (o.ticks + 1) P.tickSatMax := rfl
    rw [added, countSum_resultEffect (by simp)]
    simp only [true_and, if_true]
    split <;> omega
  by_cases drain : i = .drain
  · subst drain
    have moved : countSum (resultEffect .drain q o) + (outEffect P b .drain o).ticks = o.ticks := rfl
    simp [moved]
  have kept : (outEffect P b i o).ticks = o.ticks := by
    by_contra changed
    exact (ticks_writer changed).elim roll drain
  simp [kept, countSum_resultEffect drain, roll]

/-- Settles O45, by induction on the run with the balance of one instruction. -/
theorem noTickIsLostBelowSaturation : Obligations.NoTickIsLostBelowSaturation := by
  intro is
  induction is with
  | nil =>
    intro s t _ run
    obtain rfl := Host.Outcome.next.inj run
    simp [lostTicks]
  | cons i is ih =>
    intro s t bound run
    cases performed : exec i s with
    | next u =>
      rw [runInstrs_cons_of_next performed] at run
      obtain ⟨-, rfl⟩ := exec_next_iff.1 performed
      have later := ih (effect i s) t (outEffect_ticks_le bound _ i) run
      have now := ticks_balance bound s.node.brightness i s.queue
      have delivered : countSum (effect i s).ports.results =
          countSum s.ports.results + countSum (resultEffect i s.queue s.out) := countSum_append _ _
      have left : (effect i s).out.ticks = (outEffect s.params s.node.brightness i s.out).ticks := rfl
      rw [delivered, left] at later
      simp only [lostTicks, performed, List.count_cons, beq_iff_eq]
      omega
    | fault r => rw [runInstrs, performed] at run; cases run
    | refused r => rw [runInstrs, performed] at run; cases run

/-! ## Commands (45_command_bytes.md) -/

/-- Settles O46: the issued operation is part of the command's own effect (log 13). -/
theorem powerCommandsIssueThePowerOperations : Obligations.PowerCommandsIssueThePowerOperations :=
  fun _ => ⟨rfl, rfl⟩

/-- Settles O47: the two bounded changes are the commands' own, and SETBRI tests its operand. -/
theorem brightnessCommandsSetTheBrightness : Obligations.BrightnessCommandsSetTheBrightness := by
  intro v s
  refine ⟨rfl, rfl, ?_⟩
  by_cases defined : 1 ≤ v.toNat
  · rw [if_pos defined, exec, execSetBri, if_pos defined, State.withNode]
  · rw [if_neg defined]
    exact exec_of_not_wellFormed (i := .setBri v) (decide_eq_false defined) s

/-- Within the brightness range the scaled level is at most the level, so its ten bits hold it (00_scope.md R16). -/
theorem scaleLevel_toNat {b : Nat} (h : b ≤ 63) (v : Level) : (scaleLevel b v).toNat = v.toNat * b / 63 := by
  have below : v.toNat * b / 63 ≤ v.toNat := Nat.div_le_of_le_mul (by
    rw [Nat.mul_comm 63]
    exact Nat.mul_le_mul_left _ h)
  rw [scaleLevel, BitVec.toNat_ofNat, Nat.mod_eq_of_lt (by omega)]

/-- SELCOLOR with a defined operand (45_command_bytes.md R199). -/
theorem exec_selColor_of_lt {n : BitVec 5} (defined : n.toNat < 16) (s : State) :
    exec (.selColor n) s = .next
      ((s.withNode fun x => { x with selectedColor := n.toNat, mode := .static }).withOut
        (·.write s.params ((paletteColor s.params ⟨n.toNat, defined⟩).map (scaleLevel s.node.brightness)))) := by
  rw [exec, execSelColor, dif_pos defined]

/-- Settles O50: the written triple is the palette's entry, scaled channel by channel. -/
theorem selColorWritesTheScaledColor : Obligations.SelColorWritesTheScaledColor := by
  intro n s
  refine ⟨fun defined inRange => ?_, fun beyond => ?_⟩
  · refine ⟨(paletteColor s.params ⟨n.toNat, defined⟩).map (scaleLevel s.node.brightness), fun c => ?_, ?_⟩
    · rw [Rgb_get_map, scaleLevel_toNat inRange, paletteColor]
    · rw [exec_selColor_of_lt defined]
      rfl
  · exact exec_of_not_wellFormed (i := .selColor n) (decide_eq_false (Nat.not_le.2 beyond)) s

end Sys2Proof.Proofs
end

section
/-! Trains of edges (40_ir_decoder.md R103 to R115): what the decoder holds after the accepted durations of a frame so
far, one more duration, and from these a whole frame, a rejected duration, and a repeat after background ticks. -/

namespace Sys2Proof.Proofs

open Sys2Proof Sys2Proof.Machine

/-! ## The windows at a given unit -/

/-- Settles O16: the windows' integer comparisons (R13) at the unit 1125. -/
theorem windowsAtTheDefaultUnit : Obligations.WindowsAtTheDefaultUnit := by
  intro P d unit
  rw [isStartPulse_iff, isLeadPause_iff, isRepeatPause_iff, isBitPulse_iff, isBitPause_iff, pauseBit_eq,
    decide_eq_false_iff_not, unit]
  omega

/-! ## A frame in progress -/

/-- The decoder `x` has accepted the durations `ds` of a frame, having started as `x₀` (30_encoding.md R87, R89). -/
structure Received (P : Params) (x₀ : IrDecoder) (ds : List Micros) (x : IrDecoder) : Prop where
  pos : x.pos.toNat = ds.length
  ready : x.frameReady = decide (ds.length = 66)
  raw : ∀ p < ds.length, x.raw[p]? = ds[p]?
  bits : ∀ k d, ds[3 + 2 * k]? = some d → x.acc.getLsbD k = pauseBit P d
  repeatCnt : x.repeatCnt = x₀.repeatCnt
  lastValid : x.lastValid = x₀.lastValid
  lastAddr : x.lastAddr = x₀.lastAddr
  lastCmd : x.lastCmd = x₀.lastCmd

theorem received_nil {P : Params} {x : IrDecoder} (ready : x.frameReady = false) (pos : x.pos = 0#7) :
    Received P x [] x where
  pos := by rw [pos]; rfl
  ready := ready
  raw := by simp
  bits := by simp
  repeatCnt := rfl
  lastValid := rfl
  lastAddr := rfl
  lastCmd := rfl

section OneMore
variable {P : Params} {x₀ x : IrDecoder} {ds : List Micros} {d : Micros}

/-- One more duration stored, at its position, with the data bit of a bit pause. -/
theorem Received.snoc (h : Received P x₀ ds x) {n : Nat} (length : ds.length = n) (room : n < 66) (ts : Micros)
    {pos : BitVec 7} {acc : BitVec 32} {ready : Bool} (pos_eq : pos.toNat = n + 1)
    (ready_eq : ready = decide (n = 65))
    (bit_eq : ∀ k, acc.getLsbD k = if 3 + 2 * k = n then pauseBit P d else x.acc.getLsbD k) :
    Received P x₀ (ds ++ [d])
      { x with
        baseline := ts, raw := x.raw.setIfInBounds n d, pos := pos, acc := acc, frameReady := ready } where
  pos := by simp [pos_eq, length]
  ready := by simp [ready_eq, length]
  raw := by
    intro p hp
    rw [List.length_append, List.length_singleton] at hp
    rw [raw_setIfInBounds]
    by_cases last : n = p
    · rw [if_pos ⟨last, by omega⟩, ← last, ← length, List.getElem?_concat_length]
    · rw [if_neg (fun e => last e.1), h.raw p (by omega), List.getElem?_append_left (by omega)]
  bits := by
    intro k e he
    rw [bit_eq]
    by_cases last : 3 + 2 * k = n
    · rw [last, ← length, List.getElem?_concat_length, Option.some_inj] at he
      rw [if_pos last, he]
    · have inside : 3 + 2 * k < ds.length := by
        have := (List.getElem?_eq_some_iff.1 he).1
        rw [List.length_append, List.length_singleton] at this
        omega
      rw [if_neg last]
      exact h.bits k e (by rwa [List.getElem?_append_left inside] at he)
  repeatCnt := h.repeatCnt
  lastValid := h.lastValid
  lastAddr := h.lastAddr
  lastCmd := h.lastCmd

theorem duration_add (t d : Micros) : duration (t + d) t = d := by
  rw [duration]
  bv_omega

/-- The polarity that a train gives to position `n`: pulse and pause in turn (30_encoding.md R87). -/
def trainPolarity (P : Params) (n : Nat) : Polarity :=
  if decide (n % 2 = 0) then P.pulseEndEdge else P.pulseEndEdge.other

theorem isPulse_trainPolarity (P : Params) (n : Nat) : isPulse P (trainPolarity P n) = decide (n % 2 = 0) := by
  by_cases even : n % 2 = 0
  · simp [isPulse, trainPolarity, even]
  · cases e : P.pulseEndEdge <;> simp [isPulse, trainPolarity, even, e, Polarity.other]

theorem roleAccepts_lt {p : Nat} (accepted : roleAccepts P p d = true) : p < 66 := by
  obtain ⟨n, -⟩ | ⟨n, -⟩ | ⟨-, e⟩ | ⟨k, hk, n, -⟩ | ⟨k, hk, n, -⟩ := phaseOf_cases p
  case inr.inr.inl => rw [roleAccepts, e] at accepted; cases accepted
  all_goals omega

/-- An accepted duration: the edge stores it and moves on (40_ir_decoder.md R104 to R108, R110). -/
theorem edge_of_accepted (h : Received P x₀ ds x) (accepted : roleAccepts P ds.length d = true) :
    ∃ y, x.edge P (trainPolarity P ds.length) (x.baseline + d) = (y, none) ∧ y.baseline = x.baseline + d ∧
      Received P x₀ (ds ++ [d]) y := by
  have room := roleAccepts_lt accepted
  have waiting : x.frameReady = false := h.ready.trans (decide_eq_false (by omega))
  have polarity := isPulse_trainPolarity P ds.length
  have pos := h.pos
  obtain ⟨n, e⟩ | ⟨n, e⟩ | ⟨n, -⟩ | ⟨k, hk, n, e⟩ | ⟨k, hk, n, e⟩ := phaseOf_cases ds.length
  · have start : isStartPulse P d = true := by rwa [roleAccepts, e] at accepted
    have pulse : isPulse P (trainPolarity P ds.length) = true := by rw [polarity, n]; rfl
    refine ⟨_, ?_, rfl, h.snoc n (by omega) (x.baseline + d) (pos := 1#7) rfl waiting fun k => (if_neg (by omega)).symm⟩
    · rw [edge_at_start waiting (pos.trans n), duration_add, if_pos ⟨pulse, start⟩]
      rfl
  · have lead : isLeadPause P d = true ∧ isRepeatPause P d = false := by simpa [roleAccepts, e] using accepted
    have pause : ¬ isPulse P (trainPolarity P ds.length) = true := by rw [polarity, n]; decide
    refine ⟨_, ?_, rfl, h.snoc n (by omega) (x.baseline + d) (pos := 2#7) rfl waiting fun k => (if_neg (by omega)).symm⟩
    · rw [edge_at_lead waiting (pos.trans n), duration_add, if_pos ⟨pause, lead.1⟩, if_neg (by simp [lead.2])]
      rfl
  · omega
  · have burst : isBitPulse P d = true := by rwa [roleAccepts, e] at accepted
    have pulse : isPulse P (trainPolarity P ds.length) = true := by rw [polarity, decide_eq_true_iff]; omega
    refine ⟨_, ?_, rfl, h.snoc n (by omega) (x.baseline + d) (pos := BitVec.ofNat 7 (3 + 2 * k)) ?_
      (waiting.trans (decide_eq_false (by omega)).symm) fun k' => (if_neg (by omega)).symm⟩
    · rw [edge_at_bitPulse hk waiting (pos.trans n), duration_add, if_pos ⟨pulse, burst⟩]
      rfl
    · rw [BitVec.toNat_ofNat]; omega
  · have gap : isBitPause P d = true := by rwa [roleAccepts, e] at accepted
    have pause : ¬ isPulse P (trainPolarity P ds.length) = true := by rw [polarity, decide_eq_true_iff]; omega
    refine ⟨_, ?_, rfl, h.snoc n (by omega) (x.baseline + d) (pos := BitVec.ofNat 7 (4 + 2 * k))
      (acc := setAccBit x.acc k (pauseBit P d)) (ready := decide (k = 31)) ?_ ?_ fun k' => ?_⟩
    · rw [edge_at_bitPause hk waiting (pos.trans n), duration_add, if_pos ⟨pause, gap⟩]
      rfl
    · rw [BitVec.toNat_ofNat]; omega
    · rw [decide_eq_decide]; omega
    · rw [setAccBit_getLsbD _ _ _ hk]
      simp only [Nat.add_left_cancel_iff, Nat.mul_left_cancel_iff (two_pos)]

end OneMore

theorem exec_edge_of_silent {p : Polarity} {ts : Micros} {s : State} {x y : IrDecoder}
    (h : x.edge s.params p ts = (y, none)) : exec (.edge p ts) { s with dec := x } = .next { s with dec := y } := by
  rw [exec_edge_eq h, emit_none]

theorem decide_even_succ (n : Nat) : (!decide (n % 2 = 0)) = decide ((n + 1) % 2 = 0) := by
  rw [← decide_not, decide_eq_decide]
  omega

theorem run_of_next {i : Instr} {s t : State} (h : exec i s = .next t) : runInstrs [i] s = .next t := by
  rw [runInstrs_cons_of_next h, runInstrs]

/-- A train of accepted durations, with whatever follows it. -/
theorem run_edgeTrain_of_accepted {x₀ : IrDecoder} (s : State) (rest todo : List Micros) :
    ∀ done x, Received s.params x₀ done x →
      (∀ p d, todo[p]? = some d → roleAccepts s.params (done.length + p) d = true) →
      ∃ y, Received s.params x₀ (done ++ todo) y ∧
        runInstrs (edgeTrain s.params (decide (done.length % 2 = 0)) x.baseline (todo ++ rest)) { s with dec := x } =
          runInstrs (edgeTrain s.params (decide ((done ++ todo).length % 2 = 0)) y.baseline rest)
            { s with dec := y } := by
  induction todo with
  | nil =>
    intro done x h _
    exact ⟨x, by rwa [List.append_nil], by rw [List.append_nil, List.nil_append]⟩
  | cons d todo ih =>
    intro done x h accepted
    obtain ⟨y, edge, baseline, received⟩ := edge_of_accepted h (accepted 0 d rfl)
    have later : ∀ p e, todo[p]? = some e → roleAccepts s.params ((done ++ [d]).length + p) e = true := by
      intro p e he
      have := accepted (p + 1) e (by rwa [List.getElem?_cons_succ])
      rwa [List.length_append, List.length_singleton, Nat.add_assoc, Nat.add_comm 1 p]
    obtain ⟨z, received', run⟩ := ih (done ++ [d]) y received later
    rw [List.append_assoc, List.singleton_append] at received' run
    refine ⟨z, received', ?_⟩
    rw [List.cons_append, edgeTrain, decide_even_succ, ← run, List.length_append, List.length_singleton, baseline]
    exact runInstrs_cons_of_next (exec_edge_of_silent edge)

/-! ## The obligations -/

/-- The durations of a whole train from position 0. -/
theorem run_frame_of_accepted {s : State} {ds : List Micros} (ready : s.dec.frameReady = false) (pos : s.dec.pos = 0#7)
    (accepted : ∀ p d, ds[p]? = some d → roleAccepts s.params p d = true) (rest : List Micros) :
    ∃ y, Received s.params s.dec ds y ∧
      runInstrs (edgeTrain s.params true s.dec.baseline (ds ++ rest)) s =
        runInstrs (edgeTrain s.params (decide (ds.length % 2 = 0)) y.baseline rest) { s with dec := y } :=
  run_edgeTrain_of_accepted s rest ds [] s.dec (received_nil ready pos) (by simpa using accepted)

theorem Received.raw_toList {P : Params} {x₀ x : IrDecoder} {ds : List Micros} (h : Received P x₀ ds x) :
    x.raw.toList.take ds.length = ds := by
  apply List.ext_getElem?
  intro p
  rw [List.getElem?_take]
  split
  case isTrue inside => rw [Vector.getElem?_toList, h.raw p inside]
  case isFalse beyond => rw [List.getElem?_eq_none (by omega)]

/-- Settles O24: after 66 accepted durations the frame is complete. -/
theorem acceptedDurationsCompleteAFrame : Obligations.AcceptedDurationsCompleteAFrame := by
  intro s ds ready pos length accepted
  obtain ⟨x, h, run⟩ := run_frame_of_accepted ready pos accepted []
  rw [List.append_nil, edgeTrain, runInstrs] at run
  have full : x.raw.toList = ds := by
    rw [← h.raw_toList, List.take_of_length_le]
    rw [length, Vector.length_toList]
  exact ⟨x, run, (pos_eq_ofNat (by decide)).2 (h.pos.trans length), h.ready.trans (decide_eq_true length), h.repeatCnt,
    h.lastValid, h.lastAddr, h.lastCmd, full, fun k d _ => h.bits k d⟩

/-- A rejected duration from position 2 on aborts the frame (40_ir_decoder.md R107 to R109). -/
theorem edge_of_rejected {P : Params} {x₀ x : IrDecoder} {ds : List Micros} {bad : Micros} (h : Received P x₀ ds x)
    (two : 2 ≤ ds.length) (room : ds.length < 66) (rejected : roleAccepts P ds.length bad = false) (p : Polarity) :
    x.edge P p (x.baseline + bad) = (({ x with baseline := x.baseline + bad } : IrDecoder).abort, none) := by
  have waiting : x.frameReady = false := h.ready.trans (decide_eq_false (by omega))
  obtain ⟨n, -⟩ | ⟨n, -⟩ | ⟨n, -⟩ | ⟨k, hk, n, e⟩ | ⟨k, hk, n, e⟩ := phaseOf_cases ds.length
  · omega
  · omega
  · omega
  · have noBurst : isBitPulse P bad = false := by rwa [roleAccepts, e] at rejected
    rw [edge_at_bitPulse hk waiting (h.pos.trans n), duration_add, if_neg (by simp [noBurst])]
  · have noGap : isBitPause P bad = false := by rwa [roleAccepts, e] at rejected
    rw [edge_at_bitPause hk waiting (h.pos.trans n), duration_add, if_neg (by simp [noGap])]

/-- Settles O25: the train before the rejected duration is received, and the abort keeps all but POS and BASELINE. -/
theorem aRejectedDurationAbortsTheFrame : Obligations.ARejectedDurationAbortsTheFrame := by
  intro s ds bad ready pos two room accepted rejected
  obtain ⟨x, h, run⟩ := run_frame_of_accepted ready pos accepted [bad]
  have aborted := exec_edge_of_silent (s := s) (edge_of_rejected h two room rejected
    (trainPolarity s.params ds.length))
  refine ⟨({ x with baseline := x.baseline + bad } : IrDecoder).abort, ?_, rfl,
    h.ready.trans (decide_eq_false (by omega)), h.repeatCnt, h.lastValid, h.lastAddr, h.lastCmd,
    h.raw_toList⟩
  rw [run]
  exact run_of_next aborted

/-! ## Background ticks and the repeat gate -/

/-- The decoder after a list of background ticks. -/
def ticked (ticks : List Micros) (x : IrDecoder) : IrDecoder := ticks.foldl (fun y ts => y.tick ts) x

theorem run_ticks (ticks : List Micros) (rest : List Instr) (s : State) :
    runInstrs (ticks.map Instr.bgTick ++ rest) s = runInstrs rest { s with dec := ticked ticks s.dec } := by
  induction ticks generalizing s with
  | nil => rfl
  | cons ts ticks ih => exact (runInstrs_cons_of_next rfl).trans (ih (s.withDec (·.tick ts)))

theorem ticked_cons (ts : Micros) (ticks : List Micros) (x : IrDecoder) :
    ticked (ts :: ticks) x = ticked ticks (x.tick ts) := rfl

/-- Each tick ages the repeat gate by one, up to the cap (40_ir_decoder.md R114). -/
theorem ticked_repeatCnt (ticks : List Micros) (x : IrDecoder) (h : x.repeatCnt.toNat ≤ 4) :
    (ticked ticks x).repeatCnt.toNat = min (x.repeatCnt.toNat + ticks.length) 4 := by
  induction ticks generalizing x with
  | nil => exact (min_eq_left h).symm
  | cons ts ticks ih =>
    have aged : (x.tick ts).repeatCnt.toNat = min (x.repeatCnt.toNat + 1) 4 := by
      rw [IrDecoder.tick_repeatCnt, BitVec.toNat_ofNat]
      omega
    rw [ticked_cons, ih _ (by omega), aged, List.length_cons]
    omega

theorem ticked_baseline (ticks : List Micros) (x : IrDecoder) :
    (ticked ticks x).baseline = ticks.getLastD x.baseline := by
  induction ticks generalizing x with
  | nil => rfl
  | cons ts ticks ih => rw [ticked_cons, ih, List.getLastD_cons, IrDecoder.tick_baseline]

/-- What a tick does not write, and the position 0 that it writes. -/
theorem ticked_keeps (ticks : List Micros) (x : IrDecoder) (h : x.pos = 0#7) :
    (ticked ticks x).pos = 0#7 ∧ (ticked ticks x).frameReady = x.frameReady ∧
      (ticked ticks x).lastValid = x.lastValid ∧ (ticked ticks x).lastAddr = x.lastAddr ∧
      (ticked ticks x).lastCmd = x.lastCmd := by
  induction ticks generalizing x with
  | nil => exact ⟨h, rfl, rfl, rfl, rfl⟩
  | cons ts ticks ih => exact ih (x.tick ts) rfl

/-- A repeat pause after a start pulse (40_ir_decoder.md R106, R113): honoured below the cap. -/
theorem edge_of_repeat {P : Params} {x₀ x : IrDecoder} {dPulse dPause : Micros} (h : Received P x₀ [dPulse] x)
    (lead : isLeadPause P dPause = true) (short : isRepeatPause P dPause = true) :
    x.edge P (trainPolarity P 1) (x.baseline + dPause) =
      if x.repeatCnt.toNat < 4 then
        ({ ({ x with baseline := x.baseline + dPause } : IrDecoder).accept 1 dPause 0#7 with repeatCnt := 0#3 },
          x.repeatRecord P)
      else (({ x with baseline := x.baseline + dPause } : IrDecoder).accept 1 dPause 0#7, none) := by
  have pause : ¬ isPulse P (trainPolarity P 1) = true := by rw [isPulse_trainPolarity]; decide
  rw [edge_at_lead h.ready h.pos, duration_add, if_pos ⟨pause, lead⟩, if_pos short]

/-- A start pulse and a repeat pause from position 0: replayed below the cap, else dropped. -/
theorem run_repeat {s : State} {dPulse dPause : Micros} (ready : s.dec.frameReady = false) (pos : s.dec.pos = 0#7)
    (start : isStartPulse s.params dPulse = true) (lead : isLeadPause s.params dPause = true)
    (short : isRepeatPause s.params dPause = true) :
    ∃ t, runInstrs (edgeTrain s.params true s.dec.baseline [dPulse, dPause]) s = .next t ∧ t.dec.pos = 0#7 ∧
      if s.dec.repeatCnt.toNat < 4 then
        t.ports.irOut = s.ports.irOut ++ (s.dec.repeatRecord s.params).toList ∧ t.dec.repeatCnt = 0#3
      else t.ports.irOut = s.ports.irOut ∧ t.dec.repeatCnt = s.dec.repeatCnt := by
  have accepted : ∀ p d, [dPulse][p]? = some d → roleAccepts s.params p d = true := by
    intro p d hd
    obtain ⟨rfl, rfl⟩ : p = 0 ∧ dPulse = d := by simpa [List.getElem?_singleton] using hd
    exact start
  obtain ⟨y, h, run⟩ := run_frame_of_accepted ready pos accepted [dPause]
  have final := edge_of_repeat h lead short
  have record : y.repeatRecord s.params = s.dec.repeatRecord s.params := by
    simp only [IrDecoder.repeatRecord, h.lastValid, h.lastAddr, h.lastCmd]
  rw [h.repeatCnt, record] at final
  by_cases honoured : s.dec.repeatCnt.toNat < 4
  · rw [if_pos honoured] at final
    refine ⟨_, run.trans (run_of_next (exec_edge_eq (s := { s with dec := y }) final)), rfl, ?_⟩
    rw [if_pos honoured]
    exact ⟨rfl, rfl⟩
  · rw [if_neg honoured] at final
    refine ⟨_, run.trans (run_of_next (exec_edge_of_silent final)), rfl, ?_⟩
    rw [if_neg honoured]
    exact ⟨rfl, rfl⟩

/-- Settles O26: the ticks age the gate to the number of ticks, capped at 4, and the repeat is honoured below 4. -/
theorem repeatIsHonouredForThreeTicks : Obligations.RepeatIsHonouredForThreeTicks := by
  intro s ticks dPulse dPause ready pos fresh valid addr start lead short
  obtain ⟨pos', ready', valid', addr', cmd'⟩ := ticked_keeps ticks s.dec pos
  have aged : (ticked ticks s.dec).repeatCnt.toNat = min ticks.length 4 := by
    rw [ticked_repeatCnt _ _ (by rw [fresh]; decide), fresh, BitVec.toNat_ofNat, Nat.zero_mod, Nat.zero_add]
  have record : ((ticked ticks s.dec).repeatRecord s.params).toList = [⟨.repeated, s.dec.lastAddr, s.dec.lastCmd⟩] := by
    rw [repeatRecord_toList, valid', addr', cmd', if_pos ⟨valid, addr⟩]
  obtain ⟨t, run, done, outcome⟩ := run_repeat (s := { s with dec := ticked ticks s.dec }) (ready'.trans ready) pos'
    start lead short
  dsimp only at outcome
  rw [aged] at outcome
  rw [← ticked_baseline, run_ticks]
  refine ⟨t, run, ?_⟩
  by_cases few : ticks.length ≤ 3
  · rw [if_pos (by omega), record] at outcome
    rw [if_pos few, if_pos few]
    exact ⟨outcome.1, done, outcome.2⟩
  · rw [if_neg (by omega)] at outcome
    have capped : (ticked ticks s.dec).repeatCnt = 4#3 :=
      BitVec.eq_of_toNat_eq (aged.trans (min_eq_right (by omega)))
    rw [if_neg few, if_neg few, List.append_nil]
    exact ⟨outcome.1, done, outcome.2.trans capped⟩

end Sys2Proof.Proofs
end

section
/-! The machine's invariant (40_ir_decoder.md R130, 10_state.md R23, R25, R35, 45_command_bytes.md R190): it holds after
reset, each unit's effect keeps the unit's part, and so every step keeps the whole. -/

namespace Sys2Proof.Proofs

open Sys2Proof Sys2Proof.Machine

/-! ## The decoder -/

theorem filled_iff (x : IrDecoder) (p : Nat) :
    x.filled p = true ↔ p < 66 ∧ (x.frameReady = true ∨ p < x.pos.toNat) := by
  simp [IrDecoder.filled]

section Decoder
variable {P : Params} {x x₀ : IrDecoder} {ds : List Micros} {d : Micros}

/-- A frame in progress of accepted durations meets the invariant, given that the repeat gate does. -/
theorem decoderInv_of_received (h : Received P x₀ ds x) (fits : ds.length ≤ 66)
    (accepted : ∀ p d, ds[p]? = some d → roleAccepts P p d = true) (gate : x₀.repeatCnt.toNat ≤ 4)
    (noLast : x₀.lastValid = false → x₀.repeatCnt = 4#3) : DecoderInv P x := by
  have inside : ∀ p, x.filled p = true → p < ds.length := by
    intro p hp
    obtain ⟨inRaw, ready | below⟩ := (filled_iff x p).1 hp
    · have := of_decide_eq_true (h.ready.symm.trans ready)
      omega
    · rwa [h.pos] at below
  constructor
  case pos_le => rw [h.pos]; exact fits
  case ready_of_complete =>
    intro complete
    exact h.ready.trans (decide_eq_true (h.pos.symm.trans (by rw [complete]; rfl)))
  case pos_of_ready =>
    intro ready
    exact .inr ((pos_eq_ofNat (by decide)).2 (h.pos.trans (of_decide_eq_true (h.ready.symm.trans ready))))
  case repeat_le => rw [h.repeatCnt]; exact gate
  case repeat_of_no_last => rw [h.repeatCnt, h.lastValid]; exact noLast
  case role_of_filled =>
    intro p d hp hd
    exact accepted p d (by rwa [h.raw p (inside p hp)] at hd)
  case bit_of_filled =>
    intro k d hp hd
    exact h.bits k d (by rwa [h.raw _ (inside _ hp)] at hd)

/-- Between frames nothing but the repeat gate is constrained. -/
theorem decoderInv_of_idle (ready : x.frameReady = false) (pos : x.pos = 0#7) (gate : x.repeatCnt.toNat ≤ 4)
    (noLast : x.lastValid = false → x.repeatCnt = 4#3) : DecoderInv P x :=
  decoderInv_of_received (received_nil ready pos) (by simp) (by simp) gate noLast

theorem rawPrefix_getElem? (x : IrDecoder) {p : Nat} (h : p < x.pos.toNat) :
    (x.raw.toList.take x.pos.toNat)[p]? = x.raw[p]? := by
  rw [List.getElem?_take_of_lt h, Vector.getElem?_toList]

/-- The invariant says of a frame in progress that it is the filled part of RAW. -/
theorem received_of_decoderInv (h : DecoderInv P x) (waiting : x.frameReady = false) :
    Received P x (x.raw.toList.take x.pos.toNat) x ∧
      ∀ p d, (x.raw.toList.take x.pos.toNat)[p]? = some d → roleAccepts P p d = true := by
  have length : (x.raw.toList.take x.pos.toNat).length = x.pos.toNat := by
    rw [List.length_take, Vector.length_toList]
    exact min_eq_left h.pos_le
  have notComplete : x.pos.toNat ≠ 66 := by
    intro e
    cases waiting.symm.trans (h.ready_of_complete ((pos_eq_ofNat (by decide)).2 e))
  have stored : ∀ p d, (x.raw.toList.take x.pos.toNat)[p]? = some d → x.filled p = true ∧ x.raw[p]? = some d := by
    intro p d hd
    have below : p < x.pos.toNat := by
      have := (List.getElem?_eq_some_iff.1 hd).1
      omega
    have := h.pos_le
    exact ⟨(filled_iff x p).2 ⟨by omega, .inr below⟩, by rwa [rawPrefix_getElem? x below] at hd⟩
  refine ⟨⟨length.symm, ?_, ?_, ?_, rfl, rfl, rfl, rfl⟩, fun p d hd => ?_⟩
  · rw [waiting, length, decide_eq_false notComplete]
  · intro p hp
    exact (rawPrefix_getElem? x (length ▸ hp)).symm
  · intro k d hd
    obtain ⟨filled, raw⟩ := stored _ d hd
    exact h.bit_of_filled k d filled raw
  · obtain ⟨filled, raw⟩ := stored p d hd
    exact h.role_of_filled p d filled raw

/-- An accepted duration keeps the invariant, the one that completes the frame included. -/
theorem decoderInv_accept (h : DecoderInv P x) (waiting : x.frameReady = false) {n : Nat} (at_n : x.pos.toNat = n)
    (role : roleAccepts P n d = true) (ts : Micros) {pos : BitVec 7} {acc : BitVec 32} {ready : Bool}
    (pos_eq : pos.toNat = n + 1) (ready_eq : ready = decide (n = 65))
    (bit_eq : ∀ k, acc.getLsbD k = if 3 + 2 * k = n then pauseBit P d else x.acc.getLsbD k) :
    DecoderInv P { x with
      baseline := ts, raw := x.raw.setIfInBounds n d, pos := pos, acc := acc, frameReady := ready } := by
  obtain ⟨received, accepted⟩ := received_of_decoderInv h waiting
  have room := roleAccepts_lt role
  have length := received.pos.symm.trans at_n
  refine decoderInv_of_received (received.snoc length room ts pos_eq ready_eq bit_eq) ?_ ?_ h.repeat_le
    h.repeat_of_no_last
  · rw [List.length_append, length, List.length_singleton]
    omega
  · intro p e he
    by_cases last : p = n
    · rw [last, ← length, List.getElem?_concat_length, Option.some_inj] at he
      rwa [last, ← he]
    · have inside : p < (x.raw.toList.take x.pos.toNat).length := by
        have := (List.getElem?_eq_some_iff.1 he).1
        rw [List.length_append, List.length_singleton] at this
        omega
      exact accepted p e (by rwa [List.getElem?_append_left inside] at he)

theorem decoderInv_baseline (h : DecoderInv P x) (ts : Micros) : DecoderInv P { x with baseline := ts } :=
  ⟨h.pos_le, h.ready_of_complete, h.pos_of_ready, h.repeat_le, h.repeat_of_no_last, h.role_of_filled, h.bit_of_filled⟩

theorem toNat_ofNat_pos {n : Nat} (h : n < 128) : (BitVec.ofNat 7 n).toNat = n :=
  (pos_eq_ofNat h).1 rfl

/-- EDGE drops, ignores, aborts, replays or accepts (40_ir_decoder.md R103); each keeps the invariant. -/
theorem edge_keeps_decoderInv (h : DecoderInv P x) (p : Polarity) (ts : Micros) :
    DecoderInv P (x.edge P p ts).1 := by
  have noBit {n : Nat} (even : n % 2 = 0 ∨ n = 1) (k : Nat) :
      x.acc.getLsbD k = if 3 + 2 * k = n then pauseBit P (duration ts x.baseline) else x.acc.getLsbD k :=
    (if_neg (by omega)).symm
  obtain ⟨-, e⟩ | ⟨waiting, ⟨pos, test, e⟩ | ⟨pos, -, e⟩ | ⟨pos, -, -, below, e⟩ | ⟨pos, -, -, -, e⟩ |
    ⟨pos, test, long, e⟩ | ⟨pos, -, e⟩ | ⟨k, hk, pos, test, e⟩ | ⟨k, hk, pos, -, e⟩ | ⟨k, hk, pos, test, e⟩ |
    ⟨k, hk, pos, -, e⟩ | ⟨-, e⟩⟩ := edge_cases P p ts x
  all_goals rw [e]
  · exact decoderInv_baseline h ts
  · have role : roleAccepts P 0 (duration ts x.baseline) = true := (Bool.and_eq_true_iff.1 test).2
    exact decoderInv_accept h waiting pos role ts rfl waiting (noBit (.inl rfl))
  · exact decoderInv_baseline h ts
  · have last : x.lastValid ≠ false := by
      intro none
      rw [h.repeat_of_no_last none] at below
      exact absurd below (by decide)
    exact decoderInv_of_idle waiting rfl (Nat.zero_le 4) (fun none => absurd none last)
  · exact decoderInv_of_idle waiting rfl h.repeat_le h.repeat_of_no_last
  · have role : roleAccepts P 1 (duration ts x.baseline) = true := by
      have lead := (Bool.and_eq_true_iff.1 test).2
      simp [roleAccepts, phaseOf, lead, long]
    exact decoderInv_accept h waiting pos role ts rfl waiting (noBit (.inr rfl))
  · exact decoderInv_of_idle waiting rfl h.repeat_le h.repeat_of_no_last
  · have role : roleAccepts P (2 + 2 * k) (duration ts x.baseline) = true := by
      rw [roleAccepts, phaseOf_bitPulse hk]
      exact (Bool.and_eq_true_iff.1 test).2
    exact decoderInv_accept h waiting pos role ts ((toNat_ofNat_pos (by omega)).trans (by omega))
      (waiting.trans (decide_eq_false (by omega)).symm) (noBit (.inl (by omega)))
  · exact decoderInv_of_idle waiting rfl h.repeat_le h.repeat_of_no_last
  · have role : roleAccepts P (3 + 2 * k) (duration ts x.baseline) = true := by
      rw [roleAccepts, phaseOf_bitPause hk]
      exact (Bool.and_eq_true_iff.1 test).2
    refine decoderInv_accept h waiting pos role ts ((toNat_ofNat_pos (by omega)).trans (by omega)) ?_ fun k' => ?_
    · rw [Bool.eq_iff_iff, beq_iff_eq, decide_eq_true_iff]
      omega
    · rw [setAccBit_getLsbD _ _ _ hk]
      simp only [Nat.add_left_cancel_iff, Nat.mul_left_cancel_iff two_pos]
  · exact decoderInv_of_idle waiting rfl h.repeat_le h.repeat_of_no_last
  · exact decoderInv_baseline h ts

/-- A tick resets the position; a waiting frame keeps all of its bits (40_ir_decoder.md R114, 20_memory.md R66). -/
theorem tick_keeps_decoderInv (h : DecoderInv P x) (ts : Micros) : DecoderInv P (x.tick ts) := by
  have stillFilled : ∀ p, (x.tick ts).filled p = true → x.filled p = true := by
    intro p hp
    obtain ⟨inRaw, ready | below⟩ := (filled_iff _ p).1 hp
    · exact (filled_iff x p).2 ⟨inRaw, .inl ready⟩
    · exact absurd below (Nat.not_lt_zero p)
  refine ⟨Nat.zero_le 66, fun complete => (nomatch complete), fun _ => .inl rfl, ?_, fun none => ?_,
    fun p d hp => h.role_of_filled p d (stillFilled p hp), fun k d hp => h.bit_of_filled k d (stillFilled _ hp)⟩
  · rw [IrDecoder.tick_repeatCnt, BitVec.toNat_ofNat]
    omega
  · rw [IrDecoder.tick_repeatCnt, h.repeat_of_no_last none]
    rfl

theorem deframe_keeps_decoderInv (h : DecoderInv P x) : DecoderInv P x.deframe := by
  obtain ⟨-, e⟩ | ⟨-, e⟩ := deframe_cases x
  all_goals rw [e]
  · exact decoderInv_of_idle rfl rfl (Nat.zero_le 4) (fun none => nomatch none)
  · exact decoderInv_of_idle rfl rfl h.repeat_le h.repeat_of_no_last

theorem decEffect_keeps_decoderInv (h : DecoderInv P x) (i : Instr) : DecoderInv P (decEffect P i x).1 := by
  cases i with
  | edge p ts => exact edge_keeps_decoderInv h p ts
  | bgTick ts => exact tick_keeps_decoderInv h ts
  | deframe => exact deframe_keeps_decoderInv h
  | _ => exact h

end Decoder

/-! ## The output stage and the consumer -/

/-- The enables are written by a ROLLOVER, which needs a running generator and commits the duties they test, or cleared
with the generator (42_output_stage.md R165, R167, R175). -/
theorem outEffect_keeps_outputInv {P : Params} {o : OutputStage} (h : OutputInv P o) {i : Instr}
    (guard : i = .rollover → o.genRun = true) (b : Nat) : OutputInv P (outEffect P b i o) := by
  refine ⟨?_, ?_, outEffect_ticks_le h.ticks_le b i⟩
  · cases i with
    | rollover => exact fun halted => nomatch halted.symm.trans (guard rfl)
    | pwrOff | cmdPwrOff => exact fun _ => rfl
    | pwrOn | cmdPwrOn => exact fun halted => nomatch halted
    | selColor n =>
      obtain ⟨v, e⟩ | e := outEffect_selColor P b n o
      all_goals
        rw [e]
        exact h.dark_of_halted
    | _ => exact h.dark_of_halted
  · cases i with
    | rollover =>
      intro c lit
      have enabled : channelEnable (o.pend.get c) = true := (Rgb_get_map channelEnable o.pend c).symm.trans lit
      exact (channelEnable_iff _).1 enabled
    | pwrOff | cmdPwrOff => exact fun c lit => nomatch (Rgb_get_all false c).symm.trans lit
    | selColor n =>
      obtain ⟨v, e⟩ | e := outEffect_selColor P b n o
      all_goals
        rw [e]
        exact h.duty_of_lit
    | _ => exact h.duty_of_lit

theorem nodeEffect_keeps_nodeInv {P : Params} {n : Node} (h : NodeInv n) (i : Instr) : NodeInv (nodeEffect P i n) := by
  obtain ⟨brightness_ge, brightness_le, speed_le, color_le, time_le⟩ := h
  cases i with
  | briDec => exact ⟨le_max_right _ _, show max (n.brightness - 1) 1 ≤ 63 by omega, speed_le, color_le, time_le⟩
  | briInc => exact ⟨show 1 ≤ min (n.brightness + 1) 63 by omega, min_le_right _ _, speed_le, color_le, time_le⟩
  | spdDec => exact ⟨brightness_ge, brightness_le, (Nat.sub_le _ _).trans speed_le, color_le, time_le⟩
  | spdInc => exact ⟨brightness_ge, brightness_le, min_le_right _ _, color_le, time_le⟩
  | setSpd v => exact ⟨brightness_ge, brightness_le, Nat.le_of_lt_succ v.isLt, color_le, time_le⟩
  | setBri v =>
    rw [nodeEffect]
    split
    case isTrue defined => exact ⟨defined, Nat.le_of_lt_succ v.isLt, speed_le, color_le, time_le⟩
    case isFalse => exact ⟨brightness_ge, brightness_le, speed_le, color_le, time_le⟩
  | selAnim k =>
    rw [nodeEffect]
    split
    case isTrue => exact ⟨brightness_ge, brightness_le, speed_le, color_le, Nat.zero_le _⟩
    case isFalse => exact ⟨brightness_ge, brightness_le, speed_le, color_le, time_le⟩
  | selColor k =>
    rw [nodeEffect]
    split
    case isTrue defined => exact ⟨brightness_ge, brightness_le, speed_le, Nat.le_of_lt_succ defined, time_le⟩
    case isFalse => exact ⟨brightness_ge, brightness_le, speed_le, color_le, time_le⟩
  | _ => exact ⟨brightness_ge, brightness_le, speed_le, color_le, time_le⟩

/-! ## The traces -/

theorem repeatRecord_addr {P : Params} {x : IrDecoder} {r : IrOut} (h : r ∈ (x.repeatRecord P).toList) :
    r.addr = P.acceptedAddress := by
  rw [repeatRecord_toList] at h
  split at h
  case isTrue accepted => rw [List.mem_singleton.1 h]; exact accepted.2
  case isFalse => cases h

theorem frameRecord_addr {P : Params} {x : IrDecoder} {r : IrOut} (h : r ∈ (x.frameRecord P).toList) :
    r.addr = P.acceptedAddress := by
  obtain valid | invalid := Bool.eq_false_or_eq_true (checksumValid x.acc)
  · rw [frameRecord_toList P x valid] at h
    split at h
    case isTrue accepted => rw [List.mem_singleton.1 h]; exact accepted
    case isFalse => cases h
  · rw [frameRecord_of_not_valid P x invalid] at h
    cases h

/-- EDGE emits the record of a repeat or nothing. -/
theorem edge_record (P : Params) (p : Polarity) (ts : Micros) (x : IrDecoder) :
    (x.edge P p ts).2 = x.repeatRecord P ∨ (x.edge P p ts).2 = none := by
  obtain ⟨-, e⟩ | ⟨-, ⟨-, -, e⟩ | ⟨-, -, e⟩ | ⟨-, -, -, -, e⟩ | ⟨-, -, -, -, e⟩ | ⟨-, -, -, e⟩ | ⟨-, -, e⟩ |
    ⟨k, -, -, -, e⟩ | ⟨k, -, -, -, e⟩ | ⟨k, -, -, -, e⟩ | ⟨k, -, -, -, e⟩ | ⟨-, e⟩⟩ := edge_cases P p ts x
  case inr.inr.inr.inl => exact .inl (congrArg Prod.snd e)
  all_goals exact .inr (congrArg Prod.snd e)

/-- Every record that is emitted carries the accepted address (40_ir_decoder.md R123). -/
theorem record_addr {P : Params} {i : Instr} {x : IrDecoder} {r : IrOut} (h : r ∈ (decEffect P i x).2.toList) :
    r.addr = P.acceptedAddress := by
  cases i with
  | edge p ts =>
    rw [decEffect_edge] at h
    obtain e | e := edge_record P p ts x
    · exact repeatRecord_addr (e ▸ h)
    · rw [e] at h
      cases h
  | deframe => exact frameRecord_addr h
  | _ => cases h

/-- A delivered count is the ticks of before (42_output_stage.md R172). -/
theorem count_mem_resultEffect {i : Instr} {q : CmdQueue} {o : OutputStage} {n : Nat}
    (h : PortResult.count n ∈ resultEffect i q o) : n = o.ticks := by
  cases i with
  | deq => cases List.mem_singleton.1 h
  | drain => cases List.mem_singleton.1 h; rfl
  | _ => cases h

/-- A lit line has a lit channel, so a duty of at least the threshold (42_output_stage.md R167). -/
theorem duty_of_lit_line {P : Params} {o : OutputStage} (h : OutputInv P o) (c : Channel)
    (lit : (o.lines.get c).enabled = true) : 2 ≤ (o.lines.get c).duty.toNat := by
  rw [lines_get] at lit ⊢
  exact h.duty_of_lit c (Bool.and_eq_true_iff.1 lit).1

/-- What an instruction appends to the traces meets their part of the invariant. -/
theorem effect_keeps_portsInv {s : State} {i : Instr} (h : Inv s)
    (out : OutputInv s.params (outEffect s.params s.node.brightness i s.out)) :
    PortsInv s.params (effect i s).recordLines.ports := by
  obtain ⟨accepted, counts_le, lit_lines⟩ := h.ports
  refine ⟨fun r hr => ?_, fun n hn => ?_, fun l hl c lit => ?_⟩
  · obtain old | new := List.mem_append.1 hr
    · exact accepted r old
    · exact record_addr new
  · obtain old | new := List.mem_append.1 hn
    · exact counts_le n old
    · rw [count_mem_resultEffect new]
      exact h.out.ticks_le
  · obtain old | new := List.mem_append.1 hl
    · exact lit_lines l old c lit
    · obtain rfl := List.mem_singleton.1 new
      exact duty_of_lit_line out c lit

/-! ## The machine -/

/-- A performed instruction keeps the invariant, unit by unit. -/
theorem effect_keeps_inv {s : State} {i : Instr} (h : Inv s) (guard : enabled i s = true) :
    Inv (effect i s).recordLines := by
  have out := outEffect_keeps_outputInv h.out (enabled_iff.1 guard).2 s.node.brightness
  exact ⟨h.params, decEffect_keeps_decoderInv h.dec i, out, nodeEffect_keeps_nodeInv h.node i,
    effect_keeps_portsInv h out⟩

/-- The invariant does not speak of the model's own two fields. -/
theorem inv_of_same_units {s : State} (h : Inv s) (pending : List Input) (mark : Bool) :
    Inv { s with pending := pending, refusedMark := mark } :=
  ⟨h.params, h.dec, h.out, h.node, h.ports⟩

/-- Settles O59: a step performs an instruction, whose effect keeps each unit's part, or leaves the units alone. -/
theorem stepKeepsTheInvariant : Obligations.StepKeepsTheInvariant := by
  intro s t h step
  obtain ⟨i, rest, -, guard, rfl⟩ | ⟨-, e⟩ := step_effect step
  · exact effect_keeps_inv (inv_of_same_units h rest s.refusedMark) (enabled_iff.2 (enabled_iff.1 guard))
  · rw [e]
    exact inv_of_same_units h _ _

/-! ## Reset -/

/-- Settles O57: each listed element is written out in the reset state (70_reset_and_hazards.md R250). -/
theorem resetLeavesTheListedValues : Obligations.ResetLeavesTheListedValues := by
  unfold Obligations.ResetLeavesTheListedValues
  intro s
  and_intros <;> rfl

/-- The open parameters are within their constraints whatever their values are (00_scope.md R8, log 4). -/
theorem params_wellFormed : Config.params.WellFormed :=
  ⟨Nat.succ_pos _, Nat.succ_pos _, params_gammaMonotone⟩

theorem reset_outputInv (P : Params) : OutputInv P OutputStage.reset where
  dark_of_halted _ := rfl
  duty_of_lit c lit := nomatch (Rgb_get_all false c).symm.trans lit
  ticks_le := Nat.zero_le _

/-- Settles O58: the decoder is idle with its gate closed, the channels are dark, the traces are empty. -/
theorem resetMeetsTheInvariant : Obligations.ResetMeetsTheInvariant where
  params := params_wellFormed
  dec := decoderInv_of_idle rfl rfl (le_refl 4) (fun _ => rfl)
  out := reset_outputInv _
  node := by constructor <;> decide
  ports := by constructor <;> simp [State.reset]

end Sys2Proof.Proofs
end
